-- ==== Sys2Proof/Word.lean ====
section
/-! DEFINITION. The widths of the block: a 30-bit word, its 24 data bits and 6 parity bits (`00_scope.md` R6, R8), the
32-bit accumulator (`10_state.md` R23) and the 40-bit satellite record (`30_encoding.md` R89). -/

namespace Sys2Proof

/-- A 30-bit word, transmitted or stored: data in 29:6, parity in 5:0 (R120). -/
abbrev Word := BitVec 30

/-- The 24 data bits `d1..d24` of a word, `d1` the most significant (R8). -/
abbrev Data := BitVec 24

/-- The six parity bits `D25..D30`, `D25` the most significant (R8). -/
abbrev Parity := BitVec 6

/-- A candidate: the 32-bit value of ACC, two carry bits above a 30-bit word (R15, R23). -/
abbrev Candidate := BitVec 32

/-- One satellite's 40-bit record (R89). -/
abbrev SatBits := BitVec 40

end Sys2Proof
end

