-- ==== Sys2Proof/Syntax.lean ====
section
/-! DEFINITION. The syntax: the record the block delivers (it is RENDER's operand), the field groups the layouts cut, and
`Instr`, one constructor for each of the 35 rows of spec/opcode_table.json, with the form in which each row is coded. -/

namespace Sys2Proof

/-- The header part of a record (R95): the fields of R213 and the scaled Z-count of R214. The preamble is not part of it. -/
structure RecHeader where
  msgtype : BitVec 6
  staid : BitVec 10
  zcount : BitVec 13
  /-- Tenths of a second, unsigned. -/
  zcountDs : BitVec 16
  seqnum : BitVec 3
  frmlen : BitVec 5
  health : BitVec 3
  deriving DecidableEq, Repr

/-- One present satellite slot of a record (R95). `prcRaw`, `rrcRaw`, `prcMm`, `rrcMmps` are two's complement. -/
structure Satellite where
  ident : BitVec 5
  udre : BitVec 2
  scale : BitVec 1
  iod : BitVec 8
  prcRaw : BitVec 16
  rrcRaw : BitVec 8
  /-- Millimetres (R222). -/
  prcMm : BitVec 25
  /-- Millimetres per second (R223). -/
  rrcMmps : BitVec 13
  deriving DecidableEq, Repr

/-- The decoded record (R11, R95). An absent slot is `none` (R224). -/
inductive Record where
  /-- A message with no payload word (R216). -/
  | headerOnly (hdr : RecHeader)
  /-- Types 1 and 9: 18 slots, `nsat` of them present (R218). -/
  | corrections (hdr : RecHeader) (nsat : BitVec 5) (slots : List (Option Satellite))
  /-- Any other legal type: copies of the stored words, header words included (R226). -/
  | raw (hdr : RecHeader) (msgtype : BitVec 6) (nwords : BitVec 6) (words : List Word)
  deriving DecidableEq, Repr

/-- The seven fields HEADER cuts from the two stored header words (R130). -/
structure HeaderFields where
  preamble : BitVec 8
  msgtype : BitVec 6
  staid : BitVec 10
  zcount : BitVec 13
  seqnum : BitVec 3
  frmlen : BitVec 5
  health : BitVec 3
  deriving DecidableEq, Repr

/-- The six fields SATREC cuts from a 40-bit record, PRC and RRC as the signed integers they are (R89, R130). -/
structure SatFields where
  scale : BitVec 1
  udre : BitVec 2
  ident : BitVec 5
  prc : Int
  rrc : Int
  iod : BitVec 8
  deriving DecidableEq, Repr

/-- Header word 1 (R86). -/
structure Hw1Fields where
  preamble : BitVec 8
  msgtype : BitVec 6
  staid : BitVec 10
  parity : Parity
  deriving DecidableEq, Repr

/-- Header word 2 (R87). -/
structure Hw2Fields where
  zcount : BitVec 13
  seqnum : BitVec 3
  frmlen : BitVec 5
  health : BitVec 3
  parity : Parity
  deriving DecidableEq, Repr

/-- Clump word C0 (R88): PRC1 is signed. -/
structure C0Fields where
  scale1 : BitVec 1
  udre1 : BitVec 2
  ident1 : BitVec 5
  prc1 : Int
  parity : Parity
  deriving DecidableEq, Repr

/-- Clump word C1 (R88): RRC1 is signed. -/
structure C1Fields where
  rrc1 : Int
  iod1 : BitVec 8
  scale2 : BitVec 1
  udre2 : BitVec 2
  ident2 : BitVec 5
  parity : Parity
  deriving DecidableEq, Repr

/-- Clump word C2 (R88): both fields are signed. -/
structure C2Fields where
  prc2 : Int
  rrc2 : Int
  parity : Parity
  deriving DecidableEq, Repr

/-- Clump word C3 (R88): PRC3_HI is a byte, not sign-extended on its own (R90). -/
structure C3Fields where
  iod2 : BitVec 8
  scale3 : BitVec 1
  udre3 : BitVec 2
  ident3 : BitVec 5
  prc3Hi : BitVec 8
  parity : Parity
  deriving DecidableEq, Repr

/-- Clump word C4 (R88): RRC3 is signed, PRC3_LO is a byte. -/
structure C4Fields where
  prc3Lo : BitVec 8
  rrc3 : Int
  iod3 : BitVec 8
  parity : Parity
  deriving DecidableEq, Repr

/-- One constructor per row of spec/opcode_table.json. Only the first five come in through the ports (R82, R310). -/
inductive Instr where
  /-- FEED_BIT (R150). -/
  | feedBit (b : Bool)
  /-- FEED_WORD (R162): `w` is a stored word. -/
  | feedWord (w : Word)
  /-- DESYNC (R163). -/
  | desync
  /-- RESERVED_CMD, `op = 2'b11` (R83). -/
  | reservedCmd
  /-- RESET, the pin `rst` (R310). -/
  | reset
  /-- MSG.TYPE1: a stored header word 1 of type 1 reaching the decoder's dispatch (R92, R218). -/
  | msgType1 (staid : BitVec 10) (parity : Parity)
  /-- MSG.TYPE9 (R92, R218). -/
  | msgType9 (staid : BitVec 10) (parity : Parity)
  /-- MSG.RAW: a legal type other than 1 and 9 (R92, R226). -/
  | msgRaw (msgtype : BitVec 6) (staid : BitVec 10) (parity : Parity)
  /-- MSG.UNKNOWN: a type that is not legal (R92, R227). -/
  | msgUnknown (msgtype : BitVec 6) (staid : BitVec 10) (parity : Parity)
  /-- HW1, layout of header word 1; its preamble field is the constant PREAMBLE (R86). -/
  | hw1 (msgtype : BitVec 6) (staid : BitVec 10) (parity : Parity)
  /-- HW2, layout of header word 2 (R87). -/
  | hw2 (zcount : BitVec 13) (seqnum : BitVec 3) (frmlen : BitVec 5) (health : BitVec 3) (parity : Parity)
  /-- C0, layout of clump word 0 (R88). -/
  | c0 (scale1 : BitVec 1) (udre1 : BitVec 2) (ident1 : BitVec 5) (prc1 : BitVec 16) (parity : Parity)
  /-- C1, layout of clump word 1 (R88). -/
  | c1 (rrc1 iod1 : BitVec 8) (scale2 : BitVec 1) (udre2 : BitVec 2) (ident2 : BitVec 5) (parity : Parity)
  /-- C2, layout of clump word 2 (R88). -/
  | c2 (prc2 : BitVec 16) (rrc2 : BitVec 8) (parity : Parity)
  /-- C3, layout of clump word 3 (R88). -/
  | c3 (iod2 : BitVec 8) (scale3 : BitVec 1) (udre3 : BitVec 2) (ident3 : BitVec 5) (prc3Hi : BitVec 8) (parity : Parity)
  /-- C4, layout of clump word 4 (R88). -/
  | c4 (prc3Lo rrc3 iod3 : BitVec 8) (parity : Parity)
  /-- SATREC40, layout of one satellite's record (R89). -/
  | satrec40 (scale : BitVec 1) (udre : BitVec 2) (ident : BitVec 5) (prc : BitVec 16) (rrc iod : BitVec 8)
  /-- RAWWORD, layout of every word (R85). -/
  | rawword (data : Data) (parity : Parity)
  /-- WORD_STEP (R158). -/
  | wordStep (w : Word)
  /-- LOSS (R160). -/
  | loss
  /-- ACCEPT_WORD (R180). -/
  | acceptWord (w : Word)
  /-- ASM_DISCARD (R184). -/
  | asmDiscard
  /-- DECODE (R210): the operand is a structure; `n` is 0..63. -/
  | decode (buf : List Word) (n : BitVec 6)
  /-- SLOTS (R218). -/
  | slots (buf : List Word) (frmlen : BitVec 5)
  /-- EXTRACT (R121). -/
  | extract (v lo n : Nat)
  /-- DEINVERT (R123). -/
  | deinvert (a : Candidate)
  /-- PARITY6 (R125). -/
  | parity6 (a : Candidate)
  /-- PARITY_OK (R126). -/
  | parityOk (a : Candidate)
  /-- PREAMBLE_OK (R127). -/
  | preambleOk (w : Word)
  /-- ENCODE_WORD, the transmitter's side (R129). -/
  | encodeWord (d : Data) (c29 c30 : Bool)
  /-- HEADER (R130). -/
  | header (b0 b1 : Word)
  /-- SATREC (R130). -/
  | satrec (f : SatBits)
  /-- PRC_SCALE (R132). -/
  | prcScale (s : BitVec 1)
  /-- RRC_SCALE (R132). -/
  | rrcScale (s : BitVec 1)
  /-- RENDER (R260), outside the block. -/
  | render (r : Record)
  deriving DecidableEq, Repr

/-- How a row that has bits is coded: the role of a word is not marked in the word (R120), so bits are read under the form of
the place they stand in. The rows whose operand is a structure (DECODE, SLOTS, EXTRACT, RENDER) have no form. -/
inductive Form where
  /-- The 32-bit command word of the command port (R81). -/
  | command
  /-- The pin `rst` (R310). -/
  | rst
  /-- A stored header word 1 at the decoder's dispatch (R92). -/
  | dispatch
  | hw1 | hw2 | c0 | c1 | c2 | c3 | c4 | satrec40 | rawword
  | wordStep | loss | acceptWord | asmDiscard
  | deinvert | parity6 | parityOk | preambleOk | encodeWord | header | satrec | prcScale | rrcScale
  deriving DecidableEq, Repr

/-- The bits of one row, numbered as spec/opcode_table.json numbers them, under the form they are read in. -/
structure Coded where
  form : Form
  bits : Nat
  deriving DecidableEq, Repr

end Sys2Proof
end

