-- ==== Sys2Proof/Config.lean ====
section
/-! DEFINITION. What the configuration fixes: the sizes of `00_scope.md` R6, the OPEN parameters of R7 with the defaults the
spec gives them, the scale ROM of `40_word_codec.md` R131, and the one uninterpreted function, the dumper's text (R261). -/

namespace Sys2Proof.Config

/-- BUF_WORDS: 2 header words and up to 31 payload words (R6). -/
abbrev bufWords : Nat := 33

/-- HDR_WORDS (R6). -/
abbrev hdrWords : Nat := 2

/-- CLUMP_WORDS (R6). -/
abbrev clumpWords : Nat := 5

/-- SATS_PER_CLUMP (R6). -/
abbrev satsPerClump : Nat := 3

/-- MAX_SATS, derived in R7: six full clumps of three. -/
abbrev maxSats : Nat := 18

/-- The value of BITOFF with which the next bit completes a word (R22). -/
abbrev lastBitoff : BitVec 5 := 29

/-- The OPEN parameters that the block reads (R7): plain data, the predicate LEGAL_TYPE on 0..63 as one bit a type. -/
structure Params where
  /-- PREAMBLE. -/
  preamble : BitVec 8
  /-- Bit `t` is LEGAL_TYPE(t). -/
  legalTypes : BitVec 64
  deriving DecidableEq, Repr

/-- LEGAL_TYPE (R7, R227). -/
def Params.legalType (p : Params) (t : BitVec 6) : Bool := p.legalTypes.getLsbD t.toNat

/-- The defaults of R7: PREAMBLE 0x66; LEGAL_TYPE true for 1..63, false for 0. -/
def Params.standard : Params where
  preamble := 0x66
  legalTypes := 0xFFFFFFFFFFFFFFFE

/-- RENDER_TEXT (R261): an uninterpreted total function of the record. Nothing may be assumed of the text. -/
opaque renderText : Record → String

/-- The unit a ROM entry's integer form counts (R131). -/
inductive RomUnit where
  | tenthsOfSecond | millimetres | millimetresPerSecond | degrees | hertz | decibels | minutes
  deriving DecidableEq, Repr

/-- One entry of the scale ROM (R131): the exact rational `num / den` in the source's unit, and the hardware's integer form.
The two angle entries have the pair `(intForm, intDen)` as their integer form; for every other entry `intDen` is 1. -/
structure RomEntry where
  num : Nat
  den : Nat
  intForm : Nat
  intDen : Nat
  unit : RomUnit
  deriving DecidableEq, Repr

/-- The scale ROM, indices 0 to 12 (R131). Entries 5 to 12 are read by nothing in scope (R133). -/
def rom : List RomEntry :=
  [ -- ZCOUNT_SCALE 3/5 s; PRC_SMALL 1/50 m; PRC_LARGE 8/25 m; RRC_SMALL 1/500 m/s; RRC_LARGE 4/125 m/s
    ⟨3, 5, 6, 1, .tenthsOfSecond⟩,
    ⟨1, 50, 20, 1, .millimetres⟩,
    ⟨8, 25, 320, 1, .millimetres⟩,
    ⟨1, 500, 2, 1, .millimetresPerSecond⟩,
    ⟨4, 125, 32, 1, .millimetresPerSecond⟩,
    -- XYZ_SCALE 1/100 m; DXYZ_SCALE 1/10 m
    ⟨1, 100, 10, 1, .millimetres⟩,
    ⟨1, 10, 100, 1, .millimetres⟩,
    -- LAT_SCALE 90/32767 degree; LON_SCALE 180/32767 degree
    ⟨90, 32767, 90, 32767, .degrees⟩,
    ⟨180, 32767, 180, 32767, .degrees⟩,
    -- FREQ_SCALE 1/10 kHz; FREQ_OFFSET 190 kHz; CNR_OFFSET 24 dB; TU_SCALE 5 minutes
    ⟨1, 10, 100, 1, .hertz⟩,
    ⟨190, 1, 190000, 1, .hertz⟩,
    ⟨24, 1, 24, 1, .decibels⟩,
    ⟨5, 1, 5, 1, .minutes⟩ ]

/-- How many of the integer form's unit make one of the source's unit. -/
def RomUnit.perSourceUnit : RomUnit → Nat
  | .tenthsOfSecond => 10
  | .millimetres | .millimetresPerSecond | .hertz => 1000
  | .degrees | .decibels | .minutes => 1

end Sys2Proof.Config
end

