-- ==== Sys2Proof/WellFormed.lean ====
section
/-! DEFINITION. What a well-formed instruction is, beyond what its operand types say: which dispatch row a message type belongs
to (`30_encoding.md` R92), and that the operand of a row that takes a structure is one (`opcode_table.json`, "operands"). -/

namespace Sys2Proof

/-- A record as DECODE produces them (R95): 18 slots with `nsat` counting the present ones; `nwords` counting the words. -/
def Record.wellFormed : Record → Bool
  | .headerOnly _ => true
  | .corrections _ nsat slots =>
      slots.length == Config.maxSats && nsat.toNat == slots.countP (·.isSome)
  | .raw hdr msgtype nwords words =>
      nwords.toNat == Config.hdrWords + hdr.frmlen.toNat && words.length == nwords.toNat && msgtype == hdr.msgtype

/-- Well-formedness under the parameters `p`. -/
def Instr.wellFormed (p : Config.Params) : Instr → Bool
  | .msgType1 _ _ => p.legalType 1
  | .msgType9 _ _ => p.legalType 9
  | .msgRaw t _ _ => p.legalType t && t != 1 && t != 9
  | .msgUnknown t _ _ => !p.legalType t
  | .decode buf n => n.toNat ≤ buf.length
  | .slots buf frmlen => Config.hdrWords + frmlen.toNat ≤ buf.length
  | .extract v lo n => v < 2 ^ 40 && lo + n ≤ 40
  | .render r => r.wellFormed
  | .feedBit _ | .feedWord _ | .desync | .reservedCmd | .reset => true
  | .hw1 _ _ _ | .hw2 _ _ _ _ _ | .c0 _ _ _ _ _ | .c1 _ _ _ _ _ _ | .c2 _ _ _ | .c3 _ _ _ _ _ _ => true
  | .c4 _ _ _ _ | .satrec40 _ _ _ _ _ _ | .rawword _ _ => true
  | .wordStep _ | .loss | .acceptWord _ | .asmDiscard => true
  | .deinvert _ | .parity6 _ | .parityOk _ | .preambleOk _ | .encodeWord _ _ _ => true
  | .header _ _ | .satrec _ | .prcScale _ | .rrcScale _ => true

end Sys2Proof
end

