-- ==== Sys2Proof/Decode.lean ====
section
/-! DEFINITION. The decoder, total on any bits and rejecting by name, and after it the encoder, both from the encoding tables of
`30_encoding.md` (R81 to R92) and spec/opcode_table.json. Bit 0 is the least significant bit (R8). -/

namespace Sys2Proof

/-! ## Field extraction -/

/-- EXTRACT on a word (R121), the only way a field is read: the `n` bits of `v` from bit `lo` up. -/
def extract {k : Nat} (v : BitVec k) (lo n : Nat) : BitVec n := v.extractLsb' lo n

/-! ## Packing: the layouts written from the high bit down (R55, R81, R85 to R89) -/

/-- The command word `C = {op, din}` (R81). -/
def commandWord (op : BitVec 2) (din : BitVec 30) : BitVec 32 := op ++ din

/-- Any word: data over parity (R85). -/
def rawWord (data : Data) (parity : Parity) : Word := data ++ parity

/-- Header word 1 (R86). -/
def hw1Word (preamble : BitVec 8) (msgtype : BitVec 6) (staid : BitVec 10) (parity : Parity) : Word :=
  preamble ++ msgtype ++ staid ++ parity

/-- Header word 2 (R87). -/
def hw2Word (zcount : BitVec 13) (seqnum : BitVec 3) (frmlen : BitVec 5) (health : BitVec 3) (parity : Parity) : Word :=
  zcount ++ seqnum ++ frmlen ++ health ++ parity

/-- Clump word C0 (R88). -/
def c0Word (scale1 : BitVec 1) (udre1 : BitVec 2) (ident1 : BitVec 5) (prc1 : BitVec 16) (parity : Parity) : Word :=
  scale1 ++ udre1 ++ ident1 ++ prc1 ++ parity

/-- Clump word C1 (R88). -/
def c1Word (rrc1 iod1 : BitVec 8) (scale2 : BitVec 1) (udre2 : BitVec 2) (ident2 : BitVec 5) (parity : Parity) : Word :=
  rrc1 ++ iod1 ++ scale2 ++ udre2 ++ ident2 ++ parity

/-- Clump word C2 (R88). -/
def c2Word (prc2 : BitVec 16) (rrc2 : BitVec 8) (parity : Parity) : Word := prc2 ++ rrc2 ++ parity

/-- Clump word C3 (R88). -/
def c3Word (iod2 : BitVec 8) (scale3 : BitVec 1) (udre3 : BitVec 2) (ident3 : BitVec 5) (prc3Hi : BitVec 8)
    (parity : Parity) : Word :=
  iod2 ++ scale3 ++ udre3 ++ ident3 ++ prc3Hi ++ parity

/-- Clump word C4 (R88). -/
def c4Word (prc3Lo rrc3 iod3 : BitVec 8) (parity : Parity) : Word := prc3Lo ++ rrc3 ++ iod3 ++ parity

/-- One satellite's record (R89). -/
def satWord (scale : BitVec 1) (udre : BitVec 2) (ident : BitVec 5) (prc : BitVec 16) (rrc iod : BitVec 8) : SatBits :=
  scale ++ udre ++ ident ++ prc ++ rrc ++ iod

/-- Satellite records packed back to back, most significant bit first, into 24-bit data words, the last one zero-filled
(R89, R231): the transmitter's side of a type 1 or type 9 payload. -/
def packSats (recs : List SatBits) : List Data :=
  let words := (40 * recs.length + 23) / 24
  let stream := recs.foldl (fun v r => v * 2 ^ 40 + r.toNat) 0 * 2 ^ (24 * words - 40 * recs.length)
  (List.range words).map fun i => BitVec.ofNat 24 (stream >>> (24 * (words - 1 - i)))

/-! ## Decoding -/

/-- Why bits are not an instruction. -/
inductive DecodeError where
  /-- More bits are set than the form has. -/
  | tooManyBits (f : Form)
  /-- Bits 29:22 are not PREAMBLE: no header word 1 (R86, R93b). -/
  | notHeaderWord1
  /-- `rst` is 0: no reset (R310). -/
  | resetNotAsserted
  deriving DecidableEq, Repr

/-- How many bits the table gives a form. -/
def Form.width : Form → Nat
  | .command | .deinvert | .parity6 | .parityOk => 32
  | .rst | .prcScale | .rrcScale => 1
  | .dispatch | .hw1 | .hw2 | .c0 | .c1 | .c2 | .c3 | .c4 | .rawword | .wordStep | .acceptWord | .preambleOk => 30
  | .satrec40 | .satrec => 40
  | .encodeWord => 26
  | .header => 60
  | .loss | .asmDiscard => 0

/-- The command port's decoder (R82): total, `op = 2'b11` is the reserved command (R83). FEED_BIT takes `din[0]`; the other
bits of its `din`, and all of DESYNC's and of the reserved code's, are ignored. -/
def decodeCommand (c : BitVec 32) : Instr :=
  let op := extract c 30 2
  if op = 0 then .feedBit (c.getLsbD 0)
  else if op = 1 then .feedWord (extract c 0 30)
  else if op = 2 then .desync
  else .reservedCmd

/-- The decoder's dispatch on a stored header word 1 (R92), in the order of R210: an illegal type first. -/
def decodeDispatch (p : Config.Params) (w : Word) : Except DecodeError Instr :=
  if extract w 22 8 ≠ p.preamble then .error .notHeaderWord1
  else
    let t : BitVec 6 := extract w 16 6
    let staid : BitVec 10 := extract w 6 10
    let parity : Parity := extract w 0 6
    if p.legalType t = false then .ok (.msgUnknown t staid parity)
    else if t = 1 then .ok (.msgType1 staid parity)
    else if t = 9 then .ok (.msgType9 staid parity)
    else .ok (.msgRaw t staid parity)

/-- HW1 read as a layout (R86): the preamble field is fixed. -/
def decodeHw1 (p : Config.Params) (w : Word) : Except DecodeError Instr :=
  if extract w 22 8 ≠ p.preamble then .error .notHeaderWord1
  else .ok (.hw1 (extract w 16 6) (extract w 6 10) (extract w 0 6))

/-- The bits `b` read in the form `f`, once they are known to fit. -/
def decodeForm (p : Config.Params) (f : Form) (b : Nat) : Except DecodeError Instr :=
  let w : Word := BitVec.ofNat 30 b
  let a : Candidate := BitVec.ofNat 32 b
  let r : SatBits := BitVec.ofNat 40 b
  match f with
  | .command => .ok (decodeCommand (BitVec.ofNat 32 b))
  | .rst => if b = 1 then .ok .reset else .error .resetNotAsserted
  | .dispatch => decodeDispatch p w
  | .hw1 => decodeHw1 p w
  | .hw2 => .ok (.hw2 (extract w 17 13) (extract w 14 3) (extract w 9 5) (extract w 6 3) (extract w 0 6))
  | .c0 => .ok (.c0 (extract w 29 1) (extract w 27 2) (extract w 22 5) (extract w 6 16) (extract w 0 6))
  | .c1 => .ok (.c1 (extract w 22 8) (extract w 14 8) (extract w 13 1) (extract w 11 2) (extract w 6 5) (extract w 0 6))
  | .c2 => .ok (.c2 (extract w 14 16) (extract w 6 8) (extract w 0 6))
  | .c3 => .ok (.c3 (extract w 22 8) (extract w 21 1) (extract w 19 2) (extract w 14 5) (extract w 6 8) (extract w 0 6))
  | .c4 => .ok (.c4 (extract w 22 8) (extract w 14 8) (extract w 6 8) (extract w 0 6))
  | .satrec40 => .ok (.satrec40 (extract r 39 1) (extract r 37 2) (extract r 32 5) (extract r 16 16) (extract r 8 8)
      (extract r 0 8))
  | .rawword => .ok (.rawword (extract w 6 24) (extract w 0 6))
  | .wordStep => .ok (.wordStep w)
  | .loss => .ok .loss
  | .acceptWord => .ok (.acceptWord w)
  | .asmDiscard => .ok .asmDiscard
  | .deinvert => .ok (.deinvert a)
  | .parity6 => .ok (.parity6 a)
  | .parityOk => .ok (.parityOk a)
  | .preambleOk => .ok (.preambleOk w)
  | .encodeWord => .ok (.encodeWord (BitVec.ofNat 24 b) (b.testBit 25) (b.testBit 24))
  | .header => .ok (.header (BitVec.ofNat 30 (b >>> 30)) w)
  | .satrec => .ok (.satrec r)
  | .prcScale => .ok (.prcScale (BitVec.ofNat 1 b))
  | .rrcScale => .ok (.rrcScale (BitVec.ofNat 1 b))

/-- The decoder: total, and bits beyond the form's width are refused by name. -/
def decode (p : Config.Params) (c : Coded) : Except DecodeError Instr :=
  if c.bits < 2 ^ c.form.width then decodeForm p c.form c.bits else .error (.tooManyBits c.form)

/-! ## Encoding -/

/-- The operand of ENCODE_WORD as the table codes it: `c29`, `c30`, then the 24 data bits. -/
def encodeWordOperand (d : Data) (c29 c30 : Bool) : BitVec 26 := BitVec.ofBool c29 ++ BitVec.ofBool c30 ++ d

/-- The encoder: the form and the bits of an instruction, every ignored bit 0 (R82), `none` for the four rows whose operand is a structure with no
encoding in the spec. -/
def encode (p : Config.Params) : Instr → Option Coded
  | .feedBit b => some ⟨.command, (commandWord 0 (BitVec.zeroExtend 30 (BitVec.ofBool b))).toNat⟩
  | .feedWord w => some ⟨.command, (commandWord 1 w).toNat⟩
  | .desync => some ⟨.command, (commandWord 2 0).toNat⟩
  | .reservedCmd => some ⟨.command, (commandWord 3 0).toNat⟩
  | .reset => some ⟨.rst, 1⟩
  | .msgType1 staid parity => some ⟨.dispatch, (hw1Word p.preamble 1 staid parity).toNat⟩
  | .msgType9 staid parity => some ⟨.dispatch, (hw1Word p.preamble 9 staid parity).toNat⟩
  | .msgRaw t staid parity => some ⟨.dispatch, (hw1Word p.preamble t staid parity).toNat⟩
  | .msgUnknown t staid parity => some ⟨.dispatch, (hw1Word p.preamble t staid parity).toNat⟩
  | .hw1 t staid parity => some ⟨.hw1, (hw1Word p.preamble t staid parity).toNat⟩
  | .hw2 z q n h parity => some ⟨.hw2, (hw2Word z q n h parity).toNat⟩
  | .c0 f u i c parity => some ⟨.c0, (c0Word f u i c parity).toNat⟩
  | .c1 r o f u i parity => some ⟨.c1, (c1Word r o f u i parity).toNat⟩
  | .c2 c r parity => some ⟨.c2, (c2Word c r parity).toNat⟩
  | .c3 o f u i h parity => some ⟨.c3, (c3Word o f u i h parity).toNat⟩
  | .c4 l r o parity => some ⟨.c4, (c4Word l r o parity).toNat⟩
  | .satrec40 f u i c r o => some ⟨.satrec40, (satWord f u i c r o).toNat⟩
  | .rawword d parity => some ⟨.rawword, (rawWord d parity).toNat⟩
  | .wordStep w => some ⟨.wordStep, w.toNat⟩
  | .loss => some ⟨.loss, 0⟩
  | .acceptWord w => some ⟨.acceptWord, w.toNat⟩
  | .asmDiscard => some ⟨.asmDiscard, 0⟩
  | .deinvert a => some ⟨.deinvert, a.toNat⟩
  | .parity6 a => some ⟨.parity6, a.toNat⟩
  | .parityOk a => some ⟨.parityOk, a.toNat⟩
  | .preambleOk w => some ⟨.preambleOk, w.toNat⟩
  | .encodeWord d c29 c30 => some ⟨.encodeWord, (encodeWordOperand d c29 c30).toNat⟩
  | .header b0 b1 => some ⟨.header, (b0 ++ b1).toNat⟩
  | .satrec f => some ⟨.satrec, f.toNat⟩
  | .prcScale s => some ⟨.prcScale, s.toNat⟩
  | .rrcScale s => some ⟨.rrcScale, s.toNat⟩
  | .decode _ _ | .slots _ _ | .extract _ _ _ | .render _ => none

/-! ## The numerals of spec/opcode_table.json -/

/-- The form of a numeral of the table, of `nbits` bits (exact, or rounded up to whole bytes). Rows of one width share their
numerals (a 30-bit word in four bytes is also a command word with `op = 0`): the row with the most fixed bits is taken, and the
earlier row of the table among equals. DESIGN CHOICE, assumption 10: the command port itself never asks this, see
`decodeCommand`. -/
def tableCoded (nbits w : Nat) : Option Coded :=
  let isHeader1 := w < 2 ^ 30 && w >>> 22 == Config.Params.standard.preamble.toNat
  match nbits with
  | 0 => some ⟨.loss, w⟩
  | 1 | 8 => if w = 1 then some ⟨.rst, w⟩ else some ⟨.prcScale, w⟩
  | 26 => some ⟨.encodeWord, w⟩
  | 30 => if isHeader1 then some ⟨.dispatch, w⟩ else some ⟨.hw2, w⟩
  | 32 => if isHeader1 then some ⟨.dispatch, w⟩ else some ⟨.command, w⟩
  | 40 => some ⟨.satrec40, w⟩
  | 60 | 64 => some ⟨.header, w⟩
  | _ => none

/-- The instruction the decoder reads from a numeral of the table, under the default parameters. -/
def decodeTableWord (nbits w : Nat) : Option Instr :=
  (tableCoded nbits w).bind fun c => (decode Config.Params.standard c).toOption

end Sys2Proof
end

