-- ==== Sys2Proof/Machine/State.lean ====
section
/-! DEFINITION. The state: the Context of `10_state.md` R20, which is all the state the spec gives the block, and beside it the
model's own fields: the cycles the caller has still to present, the outputs of the last one, the OPEN parameters. -/

namespace Sys2Proof.Machine

/-- The causes of R84 and R271 (code 0, NONE, is no cause). -/
inductive Cause where
  | parity | preamble | external | frameLength | unknownType | badCommand | notOnBoundary
  deriving DecidableEq, Repr

/-- The tagged result of R11. -/
inductive Result where
  /-- INCOMPLETE: no complete message yet. -/
  | incomplete
  /-- RESYNCING: message discarded due to resync. -/
  | resyncing (c : Cause)
  /-- COMPLETE: the three COMPLETE codes are the three variants of the record. -/
  | complete (r : Record)
  /-- ERROR: a distinct decode error. -/
  | error (c : Cause)
  /-- REFUSED: the command was not admitted. The machine goes on (R278, R285). -/
  | refused (c : Cause)
  deriving DecidableEq, Repr

/-- The sync events of R159. -/
inductive SyncEvent where
  | none | lockAcquired | word | syncLost
  deriving DecidableEq, Repr

/-- The Context (R20): the only persistent state of the block. -/
structure Context where
  /-- LOCK: true is locked (R21). -/
  lock : Bool
  /-- BITOFF (R22). -/
  bitoff : BitVec 5
  /-- ACC (R23). -/
  acc : Candidate
  /-- BUF[0..32] (R24). -/
  buf : Vector Word 33
  /-- WCOUNT (R25). -/
  wcount : BitVec 6
  deriving DecidableEq, Repr

/-- The values of R311. -/
def Context.reset : Context where
  lock := false
  bitoff := 0
  acc := 0
  buf := Vector.replicate 33 0
  wcount := 0

/-- The input ports in one clock cycle (R80). -/
structure Cycle where
  rst : Bool
  cmdValid : Bool
  op : BitVec 2
  din : BitVec 30
  deriving DecidableEq, Repr

/-- The outputs of one command (R80). `res`, `cause` and `rec_o` are in `result`; `word_o` is `none` when it is not meaningful;
`lock_o`, `bitoff_o`, `wcount_o` are the values before the clock edge. -/
structure Outputs where
  result : Result
  event : SyncEvent
  wordO : Option Word
  lockO : Bool
  bitoffO : BitVec 5
  wcountO : BitVec 6
  deriving DecidableEq, Repr

/-- What an internal operation or a layout returns when it is executed on its own (MODEL'S OWN, assumption 4). -/
inductive Value where
  /-- EXTRACT. -/
  | bits (v : Nat)
  /-- DEINVERT, ENCODE_WORD. -/
  | word (w : Word)
  /-- PARITY6. -/
  | parity (p : Parity)
  /-- PARITY_OK, PREAMBLE_OK. -/
  | flag (b : Bool)
  /-- HEADER. -/
  | header (h : HeaderFields)
  /-- SATREC and the layout SATREC40. -/
  | satellite (f : SatFields)
  /-- PRC_SCALE, RRC_SCALE. -/
  | scale (k : Nat)
  /-- SLOTS. -/
  | slots (l : List (Option Satellite))
  /-- ACCEPT_WORD, DECODE and the dispatch rows. -/
  | result (r : Result)
  /-- WORD_STEP. -/
  | stepped (r : Result) (e : SyncEvent)
  /-- The layout RAWWORD. -/
  | rawWord (data : Data) (parity : Parity)
  | hw1 (f : Hw1Fields)
  | hw2 (f : Hw2Fields)
  | c0 (f : C0Fields)
  | c1 (f : C1Fields)
  | c2 (f : C2Fields)
  | c3 (f : C3Fields)
  | c4 (f : C4Fields)
  /-- RENDER. -/
  | text (t : String)
  deriving DecidableEq, Repr

/-- Nothing in this block is fatal and no cause stops it (R270, R285): there is no fault, so the type has no constructor. -/
inductive Fault where
  deriving DecidableEq, Repr

/-- The refusals. -/
inductive Refusal where
  /-- Raised by `exec` for an instruction without a meaning yet. Safe: the model stops where the block goes on. -/
  | notModelled (mnemonic : String)
  /-- Raised by `step` when the bits on the bench are no instruction. Safe: no port reaches it, the command port's decoder is
  total (assumption 4). -/
  | notAnInstruction (e : DecodeError)
  deriving DecidableEq, Repr

/-- The machine: the Context (R20), the configuration it runs under, and the two sides of its ports. -/
structure State where
  /-- The spec's state. -/
  ctx : Context
  /-- The OPEN parameters (R7): never written by a step (assumption 2). -/
  cfg : Config.Params
  /-- The cycles the caller has still to present, the next first (assumption 1). -/
  input : List Cycle
  /-- MODEL'S OWN (assumption 4): a row of the opcode table that no port carries, put there by a test; no command writes it. -/
  bench : Option Coded
  /-- The outputs of the last cycle; `none` when they are not meaningful (assumption 3). -/
  out : Option Outputs
  /-- MODEL'S OWN (assumption 4): what the last step returned, where it ran an internal operation on its own. -/
  value : Option Value
  deriving DecidableEq, Repr

/-- The state after reset: the Context of R311, the default parameters of R7, nothing presented yet. -/
def State.reset : State where
  ctx := Context.reset
  cfg := Config.Params.standard
  input := []
  bench := none
  out := none
  value := none

end Sys2Proof.Machine
end

