-- ==== Sys2Proof/Machine/Flags.lean ====
section
/-! DEFINITION. The conditions the block tests, and the codes it reports: the parity equations and the predicates built on them
(`40_word_codec.md` R122 to R127), the codes of result, cause and sync event (`30_encoding.md` R84). -/

namespace Sys2Proof.Machine

/-- `c29(A)`: the second-to-last bit received before the candidate (R122). -/
def c29 (a : Candidate) : Bool := a.getLsbD 31

/-- `c30(A)`: the last bit received before the candidate (R122). -/
def c30 (a : Candidate) : Bool := a.getLsbD 30

/-- The inversion of the data bits that `D30*` makes (R123), by the transmitter and, again, by the receiver. -/
def invertBy (c : Bool) (d : Data) : Data := d ^^^ (if c then 0xFFFFFF else 0x000000)

/-- DEINVERT (R123): the stored word of a candidate. The parity bits are never inverted. -/
def deinvert (a : Candidate) : Word := rawWord (invertBy (c30 a) (extract a 6 24)) (extract a 0 6)

/-- The exclusive or of the data bits `d_i`, `i` in `is`; `d_i` is bit `24 - i` (R124). -/
def xorData (d : Data) (is : List Nat) : Bool := is.foldr (fun i x => d.getLsbD (24 - i) ^^ x) false

/-- The six parity equations on source data (R124), `D25` in the most significant bit. -/
def parityOf (d : Data) (c29 c30 : Bool) : Parity :=
  BitVec.ofBool (c29 ^^ xorData d [1, 2, 3, 5, 6, 10, 11, 12, 13, 14, 17, 18, 20, 23]) ++
  BitVec.ofBool (c30 ^^ xorData d [2, 3, 4, 6, 7, 11, 12, 13, 14, 15, 18, 19, 21, 24]) ++
  BitVec.ofBool (c29 ^^ xorData d [1, 3, 4, 5, 7, 8, 12, 13, 14, 15, 16, 19, 20, 22]) ++
  BitVec.ofBool (c30 ^^ xorData d [2, 4, 5, 6, 8, 9, 13, 14, 15, 16, 17, 20, 21, 23]) ++
  BitVec.ofBool (c30 ^^ xorData d [1, 3, 5, 6, 7, 9, 10, 14, 15, 16, 17, 18, 21, 22, 24]) ++
  BitVec.ofBool (c29 ^^ xorData d [3, 5, 6, 8, 9, 10, 11, 13, 15, 19, 22, 23, 24])

/-- PARITY6 (R125): the equations over the source data of the candidate; `A[5:0]` plays no part. -/
def parity6 (a : Candidate) : Parity := parityOf (extract (deinvert a) 6 24) (c29 a) (c30 a)

/-- PARITY_OK (R126). -/
def parityOk (a : Candidate) : Bool := parity6 a == extract a 0 6

/-- PREAMBLE_OK on a stored word (R127). -/
def preambleOk (p : Config.Params) (w : Word) : Bool := extract w 22 8 == p.preamble

/-- The unlocked test (R152): both conditions, on the candidate after the shift. -/
def lockPoint (p : Config.Params) (a : Candidate) : Bool := preambleOk p (deinvert a) && parityOk a

/-- ENCODE_WORD (R129): the transmitted word. -/
def encodeWord (d : Data) (c29 c30 : Bool) : Word := rawWord (invertBy c30 d) (parityOf d c29 c30)

/-- The cause codes (R84). -/
def Cause.code : Cause → BitVec 3
  | .parity => 1
  | .preamble => 2
  | .external => 3
  | .frameLength => 4
  | .unknownType => 5
  | .badCommand => 6
  | .notOnBoundary => 7

/-- The port `res` (R84). -/
def Result.resCode : Result → BitVec 3
  | .incomplete => 0
  | .resyncing _ => 1
  | .complete (.headerOnly _) => 2
  | .complete (.corrections _ _ _) => 3
  | .complete (.raw _ _ _ _) => 4
  | .error _ => 5
  | .refused _ => 6

/-- The port `cause` (R84): NONE for every result that carries no cause. -/
def Result.causeCode : Result → BitVec 3
  | .incomplete | .complete _ => 0
  | .resyncing c | .error c | .refused c => c.code

/-- The port `sev` (R84). -/
def SyncEvent.code : SyncEvent → BitVec 2
  | .none => 0
  | .lockAcquired => 1
  | .word => 2
  | .syncLost => 3

/-- The port `rec_o`: the record when the result is one of the COMPLETE codes, else not meaningful (R80). -/
def Outputs.recO (o : Outputs) : Option Record :=
  match o.result with
  | .complete r => some r
  | _ => none

/-- The fields of one slot on `rec_o` as R224 drives them: an absent slot has `present = 0` and every other field 0. -/
def slotOnBus (x : Option Satellite) : Bool × Satellite :=
  match x with
  | some f => (true, f)
  | none => (false, ⟨0, 0, 0, 0, 0, 0, 0, 0⟩)

end Sys2Proof.Machine
end

