-- ==== Sys2Proof/Machine/Operands.lean ====
section
/-! DEFINITION. How words are read: the field views of the layouts (`30_encoding.md` R85 to R90), HEADER and SATREC
(`40_word_codec.md` R130), the scales (R131, R132), and the bits of a satellite slot (`43_payload_decoder.md` R219 to R223).
Every field is one `extract`. -/

namespace Sys2Proof.Machine

/-! ## Views of one word -/

/-- EXTRACT on integers (R121): `(v >> lo) mod 2^n`. -/
def extractNat (v lo n : Nat) : Nat := (v >>> lo) % 2 ^ n

/-- `DATA(w)` (R120). -/
def dataOf (w : Word) : Data := extract w 6 24

/-- `PAR(w)` (R120). -/
def parOf (w : Word) : Parity := extract w 0 6

/-- FRMLEN of a stored header word 2 (R87). -/
def frmlenOf (w : Word) : BitVec 5 := extract w 9 5

/-- MSGTYPE of a stored header word 1 (R86). -/
def msgtypeOf (w : Word) : BitVec 6 := extract w 16 6

/-- Header word 1 (R86). -/
def viewHw1 (w : Word) : Hw1Fields where
  preamble := extract w 22 8
  msgtype := msgtypeOf w
  staid := extract w 6 10
  parity := parOf w

/-- Header word 2 (R87). -/
def viewHw2 (w : Word) : Hw2Fields where
  zcount := extract w 17 13
  seqnum := extract w 14 3
  frmlen := frmlenOf w
  health := extract w 6 3
  parity := parOf w

/-- Clump word C0 (R88), PRC1 sign-extended (R90). -/
def viewC0 (w : Word) : C0Fields where
  scale1 := extract w 29 1
  udre1 := extract w 27 2
  ident1 := extract w 22 5
  prc1 := (extract w 6 16).toInt
  parity := parOf w

/-- Clump word C1 (R88). -/
def viewC1 (w : Word) : C1Fields where
  rrc1 := (extract w 22 8).toInt
  iod1 := extract w 14 8
  scale2 := extract w 13 1
  udre2 := extract w 11 2
  ident2 := extract w 6 5
  parity := parOf w

/-- Clump word C2 (R88). -/
def viewC2 (w : Word) : C2Fields where
  prc2 := (extract w 14 16).toInt
  rrc2 := (extract w 6 8).toInt
  parity := parOf w

/-- Clump word C3 (R88). -/
def viewC3 (w : Word) : C3Fields where
  iod2 := extract w 22 8
  scale3 := extract w 21 1
  udre3 := extract w 19 2
  ident3 := extract w 14 5
  prc3Hi := extract w 6 8
  parity := parOf w

/-- Clump word C4 (R88). -/
def viewC4 (w : Word) : C4Fields where
  prc3Lo := extract w 22 8
  rrc3 := (extract w 14 8).toInt
  iod3 := extract w 6 8
  parity := parOf w

/-! ## HEADER and SATREC -/

/-- HEADER (R130). -/
def header (b0 b1 : Word) : HeaderFields where
  preamble := extract b0 22 8
  msgtype := msgtypeOf b0
  staid := extract b0 6 10
  zcount := extract b1 17 13
  seqnum := extract b1 14 3
  frmlen := frmlenOf b1
  health := extract b1 6 3

/-- SATREC (R89, R130): PRC and RRC are two's complement. -/
def satrec (f : SatBits) : SatFields where
  scale := extract f 39 1
  udre := extract f 37 2
  ident := extract f 32 5
  prc := (extract f 16 16).toInt
  rrc := (extract f 8 8).toInt
  iod := extract f 0 8

/-! ## Scales -/

/-- `ROM[k]` in the hardware's integer form (R131). -/
def romValue (k : Nat) : Nat := (Config.rom[k]?).elim 0 (·.intForm)

/-- PRC_SCALE (R132): millimetres. -/
def prcScale (s : BitVec 1) : Nat := romValue (1 + s.toNat)

/-- RRC_SCALE (R132): millimetres per second. -/
def rrcScale (s : BitVec 1) : Nat := romValue (3 + s.toNat)

/-! ## Words of a message -/

/-- `buf[i]` of a sequence of words. No rule reads past the words it is given (R52, R212); the model reads zero there. -/
def wordAt (buf : List Word) (i : Nat) : Word := buf.getD i 0

/-- The header part of a record (R95, R213), with the scaled Z-count of R214. -/
def recHeader (b0 b1 : Word) : RecHeader :=
  let h := header b0 b1
  { msgtype := h.msgtype
    staid := h.staid
    zcount := h.zcount
    zcountDs := BitVec.ofNat 16 (romValue 0 * h.zcount.toNat)
    seqnum := h.seqnum
    frmlen := h.frmlen
    health := h.health }

/-- `D(i)` (R220): the data field of a word of the message, 24 zero bits outside it. -/
def dataWithin (buf : List Word) (n i : Nat) : Data := if i < n then dataOf (wordAt buf i) else 0

/-- `S` (R89, R220): the 120 data bits of clump `c` of a message of `n` words. -/
def clumpBits (buf : List Word) (n c : Nat) : BitVec 120 :=
  dataWithin buf n (2 + 5 * c) ++ dataWithin buf n (3 + 5 * c) ++ dataWithin buf n (4 + 5 * c) ++
    dataWithin buf n (5 + 5 * c) ++ dataWithin buf n (6 + 5 * c)

/-- The record of slot `k`: `S[119-40j : 80-40j]` with `c = k div 3`, `j = k mod 3` (R218, R220). -/
def slotBits (buf : List Word) (n k : Nat) : SatBits := extract (clumpBits buf n (k / 3)) (80 - 40 * (k % 3)) 40

/-- How many words of the clump the position `j` needs (the table of R219). -/
def wordsNeeded (j : Nat) : Nat := if j = 0 then 2 else if j = 1 then 4 else 5

/-- Slot `k` is present with frame length `frmlen` (R219): `frmlen - 5c` is at least what its position needs. -/
def slotPresent (frmlen k : Nat) : Bool := 5 * (k / 3) + wordsNeeded (k % 3) ≤ frmlen

/-- The fields of a present slot (R221) and its two scaled values (R222, R223). -/
def satellite (f : SatBits) : Satellite :=
  let r := satrec f
  { ident := r.ident
    udre := r.udre
    scale := r.scale
    iod := r.iod
    prcRaw := extract f 16 16
    rrcRaw := extract f 8 8
    prcMm := BitVec.ofInt 25 (r.prc * prcScale r.scale)
    rrcMmps := BitVec.ofInt 13 (r.rrc * rrcScale r.scale) }

/-- SLOTS (R218): the 18 slots of a message with frame length `frmlen`, an absent one `none` (R224). -/
def slots (buf : List Word) (frmlen : BitVec 5) : List (Option Satellite) :=
  (List.range Config.maxSats).map fun k =>
    if slotPresent frmlen.toNat k then some (satellite (slotBits buf (Config.hdrWords + frmlen.toNat) k)) else none

/-- `nsat` (R218): the number of present slots. -/
def countPresent (l : List (Option Satellite)) : BitVec 5 := BitVec.ofNat 5 (l.countP (·.isSome))

end Sys2Proof.Machine
end

