-- ==== Sys2Proof/Machine/Ops.lean ====
section
/-! DEFINITION. The named operations the meanings are built from: over the Context (`10_state.md`), the exceptional state
changes (`60_exceptions.md` R281, R282), the payload decoder's dispatch and DECODE (`43_payload_decoder.md` R210), the assembler
(`42_message_assembler.md` R180), the synchronizer's WORD_STEP (`41_bit_synchronizer.md` R158), and what a step puts on the
outputs. -/

namespace Sys2Proof.Machine

/-! ## The Context -/

/-- `BUF[i]`; no rule reads at 33 or above (R52), where the model reads zero. -/
def Context.bufRead (c : Context) (i : Nat) : Word := if h : i < 33 then c.buf[i] else 0

/-- `BUF[i] <- w`; no rule writes at 33 or above (R52), where the model writes nothing. -/
def Context.bufWrite (c : Context) (i : Nat) (w : Word) : Context := { c with buf := c.buf.setIfInBounds i w }

/-- `ACC <- ACC[30:0] ++ b` (R151). -/
def Context.shiftIn (c : Context) (b : Bool) : Context := { c with acc := extract c.acc 0 31 ++ BitVec.ofBool b }

/-- ASM_DISCARD (R184). -/
def Context.asmDiscard (c : Context) : Context := { c with buf := Vector.replicate 33 0, wcount := 0 }

/-- `LOCK <- 0; BITOFF <- 0`, what the frame-length violation adds to the discard (R158, R275). -/
def Context.dropLock (c : Context) : Context := { c with lock := false, bitoff := 0 }

/-- LOSS (R160): taking a framing loss, the counterpart of trap entry (R281). ACC is unchanged and nothing is saved. -/
def Context.loss (c : Context) : Context := c.dropLock.asmDiscard

/-! ## The payload decoder -/

/-- DECODE's arms after the length checks (R210): the test of the type, header-only, types 1 and 9, raw. `n` words of `buf`. -/
def dispatchRecord (p : Config.Params) (buf : List Word) (n : Nat) : Result :=
  let h := recHeader (wordAt buf 0) (wordAt buf 1)
  if p.legalType h.msgtype = false then .error .unknownType
  else if h.frmlen = 0 then .complete (.headerOnly h)
  else if h.msgtype = 1 ∨ h.msgtype = 9 then
    let l := slots buf h.frmlen
    .complete (.corrections h (countPresent l) l)
  else .complete (.raw h h.msgtype (BitVec.ofNat 6 n) (buf.take n))

/-- DECODE (R210): the length checks of R212, then the dispatch. -/
def decodeMessage (p : Config.Params) (buf : List Word) (n : Nat) : Result :=
  if n < 2 ∨ n > 33 then .error .frameLength
  else if n ≠ 2 + (frmlenOf (wordAt buf 1)).toNat then .error .frameLength
  else dispatchRecord p buf n

/-- The dispatch of a complete message whose stored header word 1 is `w` and whose other words are those of the Context's
buffer; its length is the one header word 2 gives (R92, assumption 5). -/
def dispatchHeader1 (p : Config.Params) (w : Word) (c : Context) : Result :=
  dispatchRecord p (c.bufWrite 0 w).buf.toList (2 + (frmlenOf (c.bufRead 1)).toNat)

/-! ## The assembler -/

/-- The message is complete (R185, R186): tested on the new WCOUNT and on BUF after the write. -/
def Context.messageComplete (c : Context) : Bool :=
  2 ≤ c.wcount.toNat && c.wcount.toNat == 2 + (frmlenOf (c.bufRead 1)).toNat

/-- Appending a word (R182): `BUF[WCOUNT] <- w`, `WCOUNT <- WCOUNT + 1`. -/
def Context.append (c : Context) (w : Word) : Context :=
  { c.bufWrite c.wcount.toNat w with wcount := c.wcount + 1 }

/-- ACCEPT_WORD (R180). -/
def acceptWord (p : Config.Params) (w : Word) (c : Context) : Context × Result :=
  if 33 ≤ c.wcount.toNat then (c.asmDiscard, .error .frameLength)
  else
    let c' := c.append w
    if c'.messageComplete then (c'.asmDiscard, decodeMessage p c'.buf.toList c'.wcount.toNat)
    else (c', .incomplete)

/-! ## The synchronizer -/

/-- WORD_STEP (R158): the preamble is due where the word is to become header word 1. -/
def wordStep (p : Config.Params) (w : Word) (c : Context) : Context × Result × SyncEvent :=
  if c.wcount = 0 ∧ preambleOk p w = false then (c.loss, .resyncing .preamble, .syncLost)
  else
    let (c', r) := acceptWord p w c
    if r = .error .frameLength then (c'.dropLock, r, .syncLost) else (c', r, .word)

/-- WORD_STEP's WORD is LOCK_ACQUIRED where LOCK was 0 when the command began (R150, R162). -/
def SyncEvent.fromLock (wasLocked : Bool) : SyncEvent → SyncEvent
  | .word => if wasLocked then .word else .lockAcquired
  | e => e

/-- `word_o` (R80): the accepted word, meaningful when `sev` is LOCK_ACQUIRED or WORD. -/
def wordOut (e : SyncEvent) (w : Word) : Option Word :=
  match e with
  | .word | .lockAcquired => some w
  | .none | .syncLost => none

/-! ## What a step shows -/

/-- The state after a command: the Context's new value, and the command's outputs, the status outputs being the values before
the clock edge (R80). -/
def State.reply (s : State) (c : Context) (r : Result) (e : SyncEvent) (w : Option Word) : State :=
  { s with
    ctx := c
    out := some { result := r, event := e, wordO := w, lockO := s.ctx.lock, bitoffO := s.ctx.bitoff,
                  wcountO := s.ctx.wcount }
    value := none }

/-- A cycle whose outputs are not meaningful (R80, R310): the Context's new value and no outputs. -/
def State.quiet (s : State) (c : Context) : State := { s with ctx := c, out := none, value := none }

/-- An internal operation executed on its own (assumption 4): the Context's new value, no outputs, and what it returns. -/
def State.deliver (s : State) (c : Context) (v : Value) : State := { s with ctx := c, out := none, value := some v }

/-- A command that ran WORD_STEP on `w`: its Context, its Result, its event renamed where lock was acquired. -/
def State.replyStep (s : State) (w : Word) (x : Context × Result × SyncEvent) : State :=
  let e := x.2.2.fromLock s.ctx.lock
  s.reply x.1 x.2.1 e (wordOut e w)

end Sys2Proof.Machine
end

