-- ==== Sys2Proof/Machine/Assembler.lean ====
section
/-! DEFINITION. The assembler's internal operations executed on their own (`42_message_assembler.md`). -/

namespace Sys2Proof.Machine

/-- ACCEPT_WORD (R180). -/
def execAcceptWord (w : Word) (s : State) : Host.Outcome State Fault Refusal :=
  let x := acceptWord s.cfg w s.ctx
  .next (s.deliver x.1 (.result x.2))

/-- ASM_DISCARD (R184). -/
def execAsmDiscard (s : State) : Host.Outcome State Fault Refusal := .next (s.quiet s.ctx.asmDiscard)

end Sys2Proof.Machine
end

