-- ==== Sys2Proof/Machine/Codec.lean ====
section
/-! DEFINITION. The word codec's operations executed on their own (`40_word_codec.md`): pure, so the Context stays as it is and
the value is delivered. -/

namespace Sys2Proof.Machine

/-- EXTRACT (R121). -/
def execExtract (v lo n : Nat) (s : State) : Host.Outcome State Fault Refusal :=
  .next (s.deliver s.ctx (.bits (extractNat v lo n)))

/-- DEINVERT (R123). -/
def execDeinvert (a : Candidate) (s : State) : Host.Outcome State Fault Refusal :=
  .next (s.deliver s.ctx (.word (deinvert a)))

/-- PARITY6 (R125). -/
def execParity6 (a : Candidate) (s : State) : Host.Outcome State Fault Refusal :=
  .next (s.deliver s.ctx (.parity (parity6 a)))

/-- PARITY_OK (R126). -/
def execParityOk (a : Candidate) (s : State) : Host.Outcome State Fault Refusal :=
  .next (s.deliver s.ctx (.flag (parityOk a)))

/-- PREAMBLE_OK (R127). -/
def execPreambleOk (w : Word) (s : State) : Host.Outcome State Fault Refusal :=
  .next (s.deliver s.ctx (.flag (preambleOk s.cfg w)))

/-- ENCODE_WORD (R129), the transmitter's side. -/
def execEncodeWord (d : Data) (c29 c30 : Bool) (s : State) : Host.Outcome State Fault Refusal :=
  .next (s.deliver s.ctx (.word (encodeWord d c29 c30)))

/-- HEADER (R130). -/
def execHeader (b0 b1 : Word) (s : State) : Host.Outcome State Fault Refusal :=
  .next (s.deliver s.ctx (.header (header b0 b1)))

/-- SATREC (R130). -/
def execSatrec (f : SatBits) (s : State) : Host.Outcome State Fault Refusal :=
  .next (s.deliver s.ctx (.satellite (satrec f)))

/-- PRC_SCALE (R132). -/
def execPrcScale (k : BitVec 1) (s : State) : Host.Outcome State Fault Refusal :=
  .next (s.deliver s.ctx (.scale (prcScale k)))

/-- RRC_SCALE (R132). -/
def execRrcScale (k : BitVec 1) (s : State) : Host.Outcome State Fault Refusal :=
  .next (s.deliver s.ctx (.scale (rrcScale k)))

end Sys2Proof.Machine
end

