-- ==== Sys2Proof/Machine/Dumper.lean ====
section
/-! DEFINITION. The dumper (`44_dumper.md`), outside the block: total and pure; the text is the OPEN parameter RENDER_TEXT. -/

namespace Sys2Proof.Machine

/-- RENDER (R260, R261). -/
def execRender (r : Record) (s : State) : Host.Outcome State Fault Refusal :=
  .next (s.deliver s.ctx (.text (Config.renderText r)))

end Sys2Proof.Machine
end

