-- ==== Sys2Proof/Machine/Layout.lean ====
section
/-! DEFINITION. The layouts (`30_encoding.md` R85 to R89) executed on their own: each is "a small pure function:
`(raw_word) -> field_values`" (`20_memory.md` R56), so the word of these fields is read by its view and the fields are delivered
(assumption 6). -/

namespace Sys2Proof.Machine

/-- HW1 (R86). -/
def execHw1 (msgtype : BitVec 6) (staid : BitVec 10) (parity : Parity) (s : State) : Host.Outcome State Fault Refusal :=
  .next (s.deliver s.ctx (.hw1 (viewHw1 (hw1Word s.cfg.preamble msgtype staid parity))))

/-- HW2 (R87). -/
def execHw2 (zcount : BitVec 13) (seqnum : BitVec 3) (frmlen : BitVec 5) (health : BitVec 3) (parity : Parity)
    (s : State) : Host.Outcome State Fault Refusal :=
  .next (s.deliver s.ctx (.hw2 (viewHw2 (hw2Word zcount seqnum frmlen health parity))))

/-- C0 (R88). -/
def execC0 (scale1 : BitVec 1) (udre1 : BitVec 2) (ident1 : BitVec 5) (prc1 : BitVec 16) (parity : Parity) (s : State) :
    Host.Outcome State Fault Refusal :=
  .next (s.deliver s.ctx (.c0 (viewC0 (c0Word scale1 udre1 ident1 prc1 parity))))

/-- C1 (R88). -/
def execC1 (rrc1 iod1 : BitVec 8) (scale2 : BitVec 1) (udre2 : BitVec 2) (ident2 : BitVec 5) (parity : Parity)
    (s : State) : Host.Outcome State Fault Refusal :=
  .next (s.deliver s.ctx (.c1 (viewC1 (c1Word rrc1 iod1 scale2 udre2 ident2 parity))))

/-- C2 (R88). -/
def execC2 (prc2 : BitVec 16) (rrc2 : BitVec 8) (parity : Parity) (s : State) : Host.Outcome State Fault Refusal :=
  .next (s.deliver s.ctx (.c2 (viewC2 (c2Word prc2 rrc2 parity))))

/-- C3 (R88). -/
def execC3 (iod2 : BitVec 8) (scale3 : BitVec 1) (udre3 : BitVec 2) (ident3 : BitVec 5) (prc3Hi : BitVec 8)
    (parity : Parity) (s : State) : Host.Outcome State Fault Refusal :=
  .next (s.deliver s.ctx (.c3 (viewC3 (c3Word iod2 scale3 udre3 ident3 prc3Hi parity))))

/-- C4 (R88). -/
def execC4 (prc3Lo rrc3 iod3 : BitVec 8) (parity : Parity) (s : State) : Host.Outcome State Fault Refusal :=
  .next (s.deliver s.ctx (.c4 (viewC4 (c4Word prc3Lo rrc3 iod3 parity))))

/-- SATREC40 (R89). -/
def execSatrec40 (scale : BitVec 1) (udre : BitVec 2) (ident : BitVec 5) (prc : BitVec 16) (rrc iod : BitVec 8)
    (s : State) : Host.Outcome State Fault Refusal :=
  .next (s.deliver s.ctx (.satellite (satrec (satWord scale udre ident prc rrc iod))))

/-- RAWWORD (R85, R120). -/
def execRawword (data : Data) (parity : Parity) (s : State) : Host.Outcome State Fault Refusal :=
  .next (s.deliver s.ctx (.rawWord (dataOf (rawWord data parity)) (parOf (rawWord data parity))))

end Sys2Proof.Machine
end

