-- ==== Sys2Proof/Machine/Payload.lean ====
section
/-! DEFINITION. The payload decoder's operations executed on their own (`43_payload_decoder.md`): pure, so the Context stays as it
is and the result is delivered. The dispatch rows (`30_encoding.md` R92) take the header word 1 they match; the other words are
the Context's buffer (assumption 5). -/

namespace Sys2Proof.Machine

/-- DECODE (R210). -/
def execDecode (buf : List Word) (n : BitVec 6) (s : State) : Host.Outcome State Fault Refusal :=
  .next (s.deliver s.ctx (.result (decodeMessage s.cfg buf n.toNat)))

/-- SLOTS (R218). -/
def execSlots (buf : List Word) (frmlen : BitVec 5) (s : State) : Host.Outcome State Fault Refusal :=
  .next (s.deliver s.ctx (.slots (slots buf frmlen)))

/-- MSG.TYPE1 (R92, R218). -/
def execMsgType1 (staid : BitVec 10) (parity : Parity) (s : State) : Host.Outcome State Fault Refusal :=
  .next (s.deliver s.ctx (.result (dispatchHeader1 s.cfg (hw1Word s.cfg.preamble 1 staid parity) s.ctx)))

/-- MSG.TYPE9 (R92, R218). -/
def execMsgType9 (staid : BitVec 10) (parity : Parity) (s : State) : Host.Outcome State Fault Refusal :=
  .next (s.deliver s.ctx (.result (dispatchHeader1 s.cfg (hw1Word s.cfg.preamble 9 staid parity) s.ctx)))

/-- MSG.RAW (R92, R226). -/
def execMsgRaw (msgtype : BitVec 6) (staid : BitVec 10) (parity : Parity) (s : State) :
    Host.Outcome State Fault Refusal :=
  .next (s.deliver s.ctx (.result (dispatchHeader1 s.cfg (hw1Word s.cfg.preamble msgtype staid parity) s.ctx)))

/-- MSG.UNKNOWN (R92, R227). -/
def execMsgUnknown (msgtype : BitVec 6) (staid : BitVec 10) (parity : Parity) (s : State) :
    Host.Outcome State Fault Refusal :=
  .next (s.deliver s.ctx (.result (dispatchHeader1 s.cfg (hw1Word s.cfg.preamble msgtype staid parity) s.ctx)))

end Sys2Proof.Machine
end

