-- ==== Sys2Proof/Machine/Synchronizer.lean ====
section
/-! DEFINITION. The commands and RESET, and the synchronizer's internal operations (`41_bit_synchronizer.md`,
`30_encoding.md` R83, `70_reset_and_hazards.md` R310). -/

namespace Sys2Proof.Machine

/-- FEED_BIT (R150): R151, then one of R153, R154 (unlocked) or R155, R156, R157 (locked). -/
def execFeedBit (b : Bool) (s : State) : Host.Outcome State Fault Refusal :=
  let c := s.ctx.shiftIn b
  let w := deinvert c.acc
  if c.lock = false then
    if lockPoint s.cfg c.acc then
      .next (s.replyStep w (wordStep s.cfg w { c with lock := true, bitoff := 0 }))
    else .next (s.reply c .incomplete .none none)
  else if c.bitoff ≠ Config.lastBitoff then
    .next (s.reply { c with bitoff := c.bitoff + 1 } .incomplete .none none)
  else
    let c := { c with bitoff := 0 }
    if parityOk c.acc = false then .next (s.reply c.loss (.resyncing .parity) .syncLost none)
    else .next (s.replyStep w (wordStep s.cfg w c))

/-- FEED_WORD (R162). -/
def execFeedWord (w : Word) (s : State) : Host.Outcome State Fault Refusal :=
  if s.ctx.bitoff ≠ 0 then .next (s.reply s.ctx (.refused .notOnBoundary) .none none)
  else .next (s.replyStep w (wordStep s.cfg w { s.ctx with lock := true }))

/-- DESYNC (R163). -/
def execDesync (s : State) : Host.Outcome State Fault Refusal :=
  .next (s.reply s.ctx.loss (.resyncing .external) .syncLost none)

/-- The reserved command (R83): REFUSED is a result of the command, and the block goes on (assumption 7). -/
def execReservedCmd (s : State) : Host.Outcome State Fault Refusal :=
  .next (s.reply s.ctx (.refused .badCommand) .none none)

/-- RESET (R310): the Context takes the values of R311, the outputs are not meaningful, the parameters stay (R312). -/
def execReset (s : State) : Host.Outcome State Fault Refusal := .next (s.quiet Context.reset)

/-- WORD_STEP (R158). -/
def execWordStep (w : Word) (s : State) : Host.Outcome State Fault Refusal :=
  let x := wordStep s.cfg w s.ctx
  .next (s.deliver x.1 (.stepped x.2.1 x.2.2))

/-- LOSS (R160). -/
def execLoss (s : State) : Host.Outcome State Fault Refusal := .next (s.quiet s.ctx.loss)

end Sys2Proof.Machine
end

