-- ==== Sys2Proof/Machine/Dispatch.lean ====
section
/-! DEFINITION. `exec`: one arm per row of spec/opcode_table.json, each one call of the row's meaning. -/

namespace Sys2Proof.Machine

def exec (i : Instr) (s : State) : Host.Outcome State Fault Refusal :=
  match i with
  | .feedBit b => Sys2Proof.Machine.execFeedBit b s
  | .feedWord w => Sys2Proof.Machine.execFeedWord w s
  | .desync => Sys2Proof.Machine.execDesync s
  | .reservedCmd => Sys2Proof.Machine.execReservedCmd s
  | .reset => Sys2Proof.Machine.execReset s
  | .msgType1 staid parity => Sys2Proof.Machine.execMsgType1 staid parity s
  | .msgType9 staid parity => Sys2Proof.Machine.execMsgType9 staid parity s
  | .msgRaw t staid parity => Sys2Proof.Machine.execMsgRaw t staid parity s
  | .msgUnknown t staid parity => Sys2Proof.Machine.execMsgUnknown t staid parity s
  | .hw1 t staid parity => Sys2Proof.Machine.execHw1 t staid parity s
  | .hw2 z q n h parity => Sys2Proof.Machine.execHw2 z q n h parity s
  | .c0 f u k c parity => Sys2Proof.Machine.execC0 f u k c parity s
  | .c1 r o f u k parity => Sys2Proof.Machine.execC1 r o f u k parity s
  | .c2 c r parity => Sys2Proof.Machine.execC2 c r parity s
  | .c3 o f u k h parity => Sys2Proof.Machine.execC3 o f u k h parity s
  | .c4 l r o parity => Sys2Proof.Machine.execC4 l r o parity s
  | .satrec40 f u k c r o => Sys2Proof.Machine.execSatrec40 f u k c r o s
  | .rawword d parity => Sys2Proof.Machine.execRawword d parity s
  | .wordStep w => Sys2Proof.Machine.execWordStep w s
  | .loss => Sys2Proof.Machine.execLoss s
  | .acceptWord w => Sys2Proof.Machine.execAcceptWord w s
  | .asmDiscard => Sys2Proof.Machine.execAsmDiscard s
  | .decode buf n => Sys2Proof.Machine.execDecode buf n s
  | .slots buf frmlen => Sys2Proof.Machine.execSlots buf frmlen s
  | .extract v lo n => Sys2Proof.Machine.execExtract v lo n s
  | .deinvert a => Sys2Proof.Machine.execDeinvert a s
  | .parity6 a => Sys2Proof.Machine.execParity6 a s
  | .parityOk a => Sys2Proof.Machine.execParityOk a s
  | .preambleOk w => Sys2Proof.Machine.execPreambleOk w s
  | .encodeWord d x29 x30 => Sys2Proof.Machine.execEncodeWord d x29 x30 s
  | .header b0 b1 => Sys2Proof.Machine.execHeader b0 b1 s
  | .satrec f => Sys2Proof.Machine.execSatrec f s
  | .prcScale k => Sys2Proof.Machine.execPrcScale k s
  | .rrcScale k => Sys2Proof.Machine.execRrcScale k s
  | .render r => Sys2Proof.Machine.execRender r s

end Sys2Proof.Machine
end

