-- ==== Sys2Proof/Machine/Fetch.lean ====
section
/-! DEFINITION. What the block runs in the next cycle: the port cycle the caller presents (`30_encoding.md` R80, R81), `rst`
overriding the command (`70_reset_and_hazards.md` R310), and how a numeral of the opcode table is put there. -/

namespace Sys2Proof.Machine

/-- The bits a port cycle presents: `rst` first (R280, R310), then the command word when `cmd_valid` is 1, else nothing. -/
def Cycle.coded (y : Cycle) : Option Coded :=
  if y.rst then some ⟨.rst, 1⟩
  else if y.cmdValid then some ⟨.command, (commandWord y.op y.din).toNat⟩
  else none

/-- The port cycle that presents a command word (R81). -/
def Cycle.ofCommand (c : BitVec 32) : Cycle :=
  { rst := false, cmdValid := true, op := extract c 30 2, din := extract c 0 30 }

/-- The port cycle that asserts `rst`. -/
def Cycle.ofReset : Cycle := { rst := true, cmdValid := false, op := 0, din := 0 }

/-- What the next step runs, `none` where no command is presented, and the state with it taken away. The bench is the model's own
and comes before the ports (assumption 4); an empty input is a cycle without a command (assumption 1). -/
def fetch (s : State) : Option Coded × State :=
  match s.bench with
  | some c => (some c, { s with bench := none })
  | none =>
    match s.input with
    | [] => (none, s)
    | y :: rest => (y.coded, { s with input := rest })

/-- The state in which the next step fetches `c`: a command or `rst` as the next port cycle, any other row on the bench. -/
def placeCoded (s : State) (c : Coded) : State :=
  match c.form with
  | .command => { s with bench := none, input := Cycle.ofCommand (BitVec.ofNat 32 c.bits) :: s.input }
  | .rst => { s with bench := none, input := Cycle.ofReset :: s.input }
  | _ => { s with bench := some c }

end Sys2Proof.Machine
end

