-- ==== Sys2Proof/Machine/Step.lean ====
section
/-! DEFINITION. One step is one clock cycle (`30_encoding.md` R80): fetch, decode, execute. -/

namespace Sys2Proof.Machine

/-- One cycle: what the ports present is decoded and executed; a cycle without a command changes no state (R80, R292). -/
def step (s : State) : Host.Outcome State Fault Refusal :=
  match fetch s with
  | (none, s') => .next (s'.quiet s'.ctx)
  | (some c, s') =>
    match decode s'.cfg c with
    | .ok i => exec i s'
    | .error e => .refused (.notAnInstruction e)

/-- The state with a numeral of spec/opcode_table.json placed where the next step fetches it; unchanged where it is no row. -/
def State.withFetchWord (s : State) (nbits w : Nat) : State :=
  match tableCoded nbits w with
  | some c => placeCoded s c
  | none => s

end Sys2Proof.Machine
end

