-- ==== Sys2Proof/Safety.lean ====
section
/-! DEFINITION. What counts as a safe state and a safe run, in the terms the statements use: the invariants at rest of
`10_state.md` R40, what the ports can present, and the streams a caller feeds. -/

namespace Sys2Proof.Machine

/-- The invariants at rest, I-a to I-e (R40), under the parameters `p`. -/
structure Context.Inv (p : Config.Params) (c : Context) : Prop where
  /-- I-a. -/
  unlocked_is_empty : c.lock = false → c.bitoff = 0 ∧ c.wcount = 0 ∧ ∀ i, i < 33 → c.bufRead i = 0
  /-- I-b. -/
  bitoff_range : c.bitoff.toNat ≤ 29
  /-- I-c, the range. -/
  wcount_range : c.wcount.toNat ≤ 32
  /-- I-c, the message is still incomplete. -/
  incomplete : 2 ≤ c.wcount.toNat → c.wcount.toNat < 2 + (frmlenOf (c.bufRead 1)).toNat
  /-- I-d. -/
  empty_above : ∀ i, c.wcount.toNat ≤ i → i < 33 → c.bufRead i = 0
  /-- I-e. -/
  header_has_preamble : 1 ≤ c.wcount.toNat → preambleOk p (c.bufRead 0) = true

/-- The invariant of the machine: the Context's, and nothing on the model's own bench, which no port can fill (R82). -/
structure State.Inv (s : State) : Prop where
  bench_empty : s.bench = none
  ctx_inv : s.ctx.Inv s.cfg

/-- The four commands that come in through the command port (R82, R83). -/
def isCommand : Instr → Bool
  | .feedBit _ | .feedWord _ | .desync | .reservedCmd => true
  | .msgType1 _ _ | .msgType9 _ _ | .msgRaw _ _ _ | .msgUnknown _ _ _ => false
  | .hw1 _ _ _ | .hw2 _ _ _ _ _ | .c0 _ _ _ _ _ | .c1 _ _ _ _ _ _ | .c2 _ _ _ | .c3 _ _ _ _ _ _ => false
  | .c4 _ _ _ _ | .satrec40 _ _ _ _ _ _ | .rawword _ _ => false
  | .decode _ _ | .slots _ _ | .extract _ _ _ | .deinvert _ | .parity6 _ | .parityOk _ | .preambleOk _ => false
  | .encodeWord _ _ _ | .header _ _ | .satrec _ | .prcScale _ | .rrcScale _ | .render _ => false
  | .reset | .wordStep _ | .loss | .acceptWord _ | .asmDiscard => false

/-- The pure operations and the layouts: they read their operands and the parameters, and deliver a value (R121 to R132, R229,
R261). -/
def isPure : Instr → Bool
  | .msgType1 _ _ | .msgType9 _ _ | .msgRaw _ _ _ | .msgUnknown _ _ _ => true
  | .hw1 _ _ _ | .hw2 _ _ _ _ _ | .c0 _ _ _ _ _ | .c1 _ _ _ _ _ _ | .c2 _ _ _ | .c3 _ _ _ _ _ _ => true
  | .c4 _ _ _ _ | .satrec40 _ _ _ _ _ _ | .rawword _ _ => true
  | .decode _ _ | .slots _ _ | .extract _ _ _ | .deinvert _ | .parity6 _ | .parityOk _ | .preambleOk _ => true
  | .encodeWord _ _ _ | .header _ _ | .satrec _ | .prcScale _ | .rrcScale _ | .render _ => true
  | .feedBit _ | .feedWord _ | .desync | .reservedCmd | .reset | .wordStep _ | .loss | .acceptWord _ | .asmDiscard => false

/-- `k` steps of the machine, the host's own runner. -/
def runSteps (k : Nat) (s : State) : Host.Outcome State Fault Refusal := Host.Core.run Sys2Proof.core k s

/-- The port cycle of FEED_BIT (R80 to R82). -/
def feedBitCycle (b : Bool) : Cycle := { rst := false, cmdValid := true, op := 0, din := BitVec.zeroExtend 30 (BitVec.ofBool b) }

/-- The port cycle of FEED_WORD (R80 to R82). -/
def feedWordCycle (w : Word) : Cycle := { rst := false, cmdValid := true, op := 1, din := w }

/-- The 30 bits of a word in the order they are received, bit 29 first (R54). -/
def bitsOfWord (w : Word) : List Bool := (List.range 30).map fun k => w.getLsbD (29 - k)

/-- The header of a record (R95). -/
def recordHeader : Record → RecHeader
  | .headerOnly h => h
  | .corrections h _ _ => h
  | .raw h _ _ _ => h

/-- The exclusive or of all bits of `v`, the `par` of R124. -/
def xorAll (v : BitVec 32) : Bool := (List.range 32).foldr (fun i x => v.getLsbD i ^^ x) false

/-- The word that is header word 2 once `w` has been appended. -/
def headerWord2After (c : Context) (w : Word) : Word := if c.wcount.toNat = 1 then w else c.bufRead 1

/-- R185 to R187: storing `w` completes the message. -/
def completesMessage (c : Context) (w : Word) : Prop :=
  1 ≤ c.wcount.toNat ∧ c.wcount.toNat + 1 = 2 + (frmlenOf (headerWord2After c w)).toNat

/-- The header part of a record, field by field (R95, R213, R214). -/
def headerOfWords (b0 b1 : Word) : RecHeader where
  msgtype := b0.extractLsb' 16 6
  staid := b0.extractLsb' 6 10
  zcount := b1.extractLsb' 17 13
  zcountDs := BitVec.ofNat 16 (6 * (b1.extractLsb' 17 13).toNat)
  seqnum := b1.extractLsb' 14 3
  frmlen := b1.extractLsb' 9 5
  health := b1.extractLsb' 6 3

/-- The stored words of a message: the two header words, then data words, each with parity bits that DECODE does not read. -/
def messageWords (preamble : BitVec 8) (t : BitVec 6) (staid : BitVec 10) (z : BitVec 13) (q h : BitVec 3)
    (payload : List Data) (parity : Nat → Parity) : List Word :=
  hw1Word preamble t staid (parity 0) :: hw2Word z q (BitVec.ofNat 5 payload.length) h (parity 1) ::
    payload.mapIdx fun i d => rawWord d (parity (i + 2))

end Sys2Proof.Machine
end

