-- ==== Sys2Proof/Certificates/Slice0/Obligations.lean ====
section
/-! DEFINITION. The statements for the provers, from the numbered rules of spec/. `s.reply c r e w` is the state after a command
with Context `c`, Result `r`, sync event `e` and `word_o` `w`; `s.deliver c v` the state after an internal operation that returns
`v`; `s.quiet c` the state after a cycle whose outputs are not meaningful. All three keep `cfg`, `input` and `bench`. -/

open Sys2Proof Sys2Proof.Machine

/-! ## FEED_BIT -/

/-- R151, R23: FEED_BIT makes ACC `((ACC << 1) or b) mod 2^32`, and reads it in no other way than through that new value; RESET
makes it 0; nothing else writes it, and nothing else reads it: whatever ACC holds, any other operation does the same, and leaves in
ACC what was there, or 0 where it is RESET. -/
def Obligations.AccWrittenByFeedBitAndResetOnly : Prop :=
  (∀ (b : Bool) (s t : State), exec (.feedBit b) s = .next t →
    t.ctx.acc.toNat = (2 * s.ctx.acc.toNat + b.toNat) % 2 ^ 32) ∧
  (∀ (b : Bool) (s : State) (a : Candidate), (2 * a.toNat + b.toNat) % 2 ^ 32 = (2 * s.ctx.acc.toNat + b.toNat) % 2 ^ 32 →
    exec (.feedBit b) { s with ctx := { s.ctx with acc := a } } = exec (.feedBit b) s) ∧
  (∀ s : State, ∃ t, exec .reset s = .next t ∧ t.ctx.acc = 0x00000000) ∧
  (∀ (i : Instr) (s t : State), (∀ b, i ≠ .feedBit b) → i ≠ .reset → exec i s = .next t → t.ctx.acc = s.ctx.acc) ∧
  ∀ (i : Instr) (s t : State) (a : Candidate), (∀ b, i ≠ .feedBit b) → exec i s = .next t →
    exec i { s with ctx := { s.ctx with acc := a } } =
      .next { t with ctx := { t.ctx with acc := if i = .reset then 0 else a } }

/-- R152, R154: unlocked and no lock point, only ACC changes. -/
def Obligations.FeedBitWithoutLockPointOnlyShifts : Prop :=
  ∀ (b : Bool) (s : State), s.ctx.lock = false →
    ¬ (preambleOk s.cfg (deinvert (s.ctx.shiftIn b).acc) = true ∧ parityOk (s.ctx.shiftIn b).acc = true) →
    exec (.feedBit b) s = .next (s.reply (s.ctx.shiftIn b) .incomplete .none none)

/-- R152, R153: unlocked and a lock point, with WCOUNT 0 as invariant I-a has it: header word 1 is stored and LOCK is set. -/
def Obligations.FeedBitAcquiresLock : Prop :=
  ∀ (b : Bool) (s : State), s.ctx.lock = false → s.ctx.wcount = 0 →
    preambleOk s.cfg (deinvert (s.ctx.shiftIn b).acc) = true → parityOk (s.ctx.shiftIn b).acc = true →
    exec (.feedBit b) s = .next (s.reply
      { lock := true, bitoff := 0, acc := (s.ctx.shiftIn b).acc,
        buf := s.ctx.buf.setIfInBounds 0 (deinvert (s.ctx.shiftIn b).acc), wcount := 1 }
      .incomplete .lockAcquired (some (deinvert (s.ctx.shiftIn b).acc)))

/-- R150, R157: at a lock point, and at a locked boundary whose parity holds, the stored word goes to WORD_STEP, whatever WCOUNT
is. -/
def Obligations.FeedBitHandsItsWordToWordStep : Prop :=
  ∀ (b : Bool) (s : State),
    (s.ctx.lock = false → preambleOk s.cfg (deinvert (s.ctx.shiftIn b).acc) = true →
      parityOk (s.ctx.shiftIn b).acc = true →
      exec (.feedBit b) s = .next (s.replyStep (deinvert (s.ctx.shiftIn b).acc)
        (wordStep s.cfg (deinvert (s.ctx.shiftIn b).acc) { s.ctx.shiftIn b with lock := true, bitoff := 0 }))) ∧
    (s.ctx.lock = true → s.ctx.bitoff = 29 → parityOk (s.ctx.shiftIn b).acc = true →
      exec (.feedBit b) s = .next (s.replyStep (deinvert (s.ctx.shiftIn b).acc)
        (wordStep s.cfg (deinvert (s.ctx.shiftIn b).acc) { s.ctx.shiftIn b with bitoff := 0 })))

/-- R155: locked and inside a word the bit is only counted, modulo 32 for the values 30 and 31. -/
def Obligations.FeedBitInsideWordOnlyCounts : Prop :=
  ∀ (b : Bool) (s : State), s.ctx.lock = true → s.ctx.bitoff.toNat ≠ 29 →
    exec (.feedBit b) s = .next (s.reply
      { s.ctx.shiftIn b with bitoff := BitVec.ofNat 5 ((s.ctx.bitoff.toNat + 1) % 32) } .incomplete .none none)

/-- R156, R164: a parity failure at a boundary leaves the state of reset except for ACC. -/
def Obligations.FeedBitParityFailureLosesLock : Prop :=
  ∀ (b : Bool) (s : State), s.ctx.lock = true → s.ctx.bitoff = 29 → parityOk (s.ctx.shiftIn b).acc = false →
    exec (.feedBit b) s = .next (s.reply { Context.reset with acc := (s.ctx.shiftIn b).acc }
      (.resyncing .parity) .syncLost none)

/-- R161 (a): under FEED_BIT, LOCK becomes 1 only where the last 32 bits pass the test. -/
def Obligations.FeedBitLocksOnlyAtLockPoint : Prop :=
  ∀ (b : Bool) (s t : State), s.ctx.lock = false → exec (.feedBit b) s = .next t → t.ctx.lock = true →
    preambleOk s.cfg (deinvert t.ctx.acc) = true ∧ parityOk t.ctx.acc = true

/-- R161 (b): a word that differs in one of its 30 bits from a word with valid parity is rejected, lock is lost, and no partial
message remains. -/
def Obligations.SingleBitErrorLosesLock : Prop :=
  ∀ (b : Bool) (s : State) (i : Nat), s.ctx.lock = true → s.ctx.bitoff = 29 → i < 30 →
    parityOk ((s.ctx.shiftIn b).acc ^^^ ((1 : BitVec 32) <<< i)) = true →
    exec (.feedBit b) s = .next (s.reply { Context.reset with acc := (s.ctx.shiftIn b).acc }
      (.resyncing .parity) .syncLost none)

/-! ## FEED_WORD, DESYNC, the reserved command, RESET -/

/-- R162: off a boundary FEED_WORD is refused and changes no state. -/
def Obligations.FeedWordOffBoundaryIsRefused : Prop :=
  ∀ (w : Word) (s : State), s.ctx.bitoff ≠ 0 →
    exec (.feedWord w) s = .next (s.reply s.ctx (.refused .notOnBoundary) .none none)

/-- R162: on a boundary FEED_WORD sets LOCK and runs WORD_STEP; ACC and BITOFF are not written. -/
def Obligations.FeedWordOnBoundaryRunsWordStep : Prop :=
  ∀ (w : Word) (s : State), s.ctx.bitoff = 0 →
    exec (.feedWord w) s = .next (s.replyStep w (wordStep s.cfg w { s.ctx with lock := true })) ∧
    ∀ t, exec (.feedWord w) s = .next t → t.ctx.acc = s.ctx.acc ∧ t.ctx.bitoff = 0

/-- R162: a word fed while unlocked enters lock as header word 1 if it carries the preamble, and else changes no state. -/
def Obligations.FeedWordWhileUnlockedEntersLockOnPreamble : Prop :=
  ∀ (w : Word) (s : State), s.ctx.Inv s.cfg → s.ctx.lock = false →
    (preambleOk s.cfg w = true → exec (.feedWord w) s = .next (s.reply
      { lock := true, bitoff := 0, acc := s.ctx.acc, buf := s.ctx.buf.setIfInBounds 0 w, wcount := 1 }
      .incomplete .lockAcquired (some w))) ∧
    (preambleOk s.cfg w = false → exec (.feedWord w) s =
      .next (s.reply s.ctx (.resyncing .preamble) .syncLost none))

/-- R163: `op = 2'b10` is DESYNC; it executes LOSS and reports EXTERNAL whatever the state, and on an unlocked Context it changes
nothing. -/
def Obligations.DesyncExecutesLoss : Prop :=
  (∀ din : BitVec 30, decodeCommand (2#2 ++ din) = .desync) ∧
  ∀ (s : State),
    exec .desync s = .next (s.reply { Context.reset with acc := s.ctx.acc } (.resyncing .external) .syncLost none) ∧
    (s.ctx.Inv s.cfg → s.ctx.lock = false →
      exec .desync s = .next (s.reply s.ctx (.resyncing .external) .syncLost none))

/-- R83: `op = 2'b11` is the reserved command, and it changes no state. -/
def Obligations.ReservedCommandChangesNoState : Prop :=
  (∀ din : BitVec 30, decodeCommand (3#2 ++ din) = .reservedCmd) ∧
  ∀ (s : State), exec .reservedCmd s = .next (s.reply s.ctx (.refused .badCommand) .none none)

/-- R310, R311, R312: RESET gives every Context field its reset value from any state, keeps the parameters, and its outputs are
not meaningful. -/
def Obligations.ResetGivesEveryFieldItsValue : Prop :=
  ∀ (s : State), exec .reset s = .next
    { s with
      ctx := { lock := false, bitoff := 0, acc := 0, buf := Vector.replicate 33 0, wcount := 0 }
      out := none
      value := none }

/-- R311, R41: the machine right after reset; it is what LOSS leaves, with ACC zero as well, and meets the invariants of R40. -/
def Obligations.ResetValues : Prop :=
  State.reset.ctx.lock = false ∧ State.reset.ctx.bitoff = 0 ∧ State.reset.ctx.acc = 0x00000000 ∧
  State.reset.ctx.wcount = 0 ∧ (∀ i, i < 33 → State.reset.ctx.bufRead i = 0) ∧
  (∀ c : Context, State.reset.ctx = { c.loss with acc := 0 }) ∧ State.reset.ctx.Inv State.reset.cfg

/-! ## WORD_STEP, LOSS, ACCEPT_WORD, ASM_DISCARD -/

/-- R160, R164: LOSS leaves the state of reset except for ACC. -/
def Obligations.LossLeavesResetExceptAcc : Prop :=
  ∀ (s : State), exec .loss s = .next (s.quiet { Context.reset with acc := s.ctx.acc }) ∧
    (s.ctx.Inv s.cfg → s.ctx.lock = false → exec .loss s = .next (s.quiet s.ctx))

/-- R184: ASM_DISCARD writes WCOUNT and every entry of BUF to zero, and nothing else. -/
def Obligations.AsmDiscardEmptiesTheBuffer : Prop :=
  ∀ (s : State), ∃ t, exec .asmDiscard s = .next t ∧ t = s.quiet { s.ctx with buf := t.ctx.buf, wcount := 0 } ∧
    ∀ i, i < 33 → t.ctx.bufRead i = 0

/-- R180 to R188: ACCEPT_WORD with its capacity guard, the append, the completion. LOCK, BITOFF and ACC are never written. -/
def Obligations.AcceptWordCases : Prop :=
  ∀ (w : Word) (s : State),
    (33 ≤ s.ctx.wcount.toNat →
      exec (.acceptWord w) s = .next (s.deliver s.ctx.asmDiscard (.result (.error .frameLength)))) ∧
    (s.ctx.wcount.toNat < 33 → completesMessage s.ctx w →
      exec (.acceptWord w) s = .next (s.deliver s.ctx.asmDiscard
        (.result (decodeMessage s.cfg (s.ctx.buf.toList.set s.ctx.wcount.toNat w) (s.ctx.wcount.toNat + 1))))) ∧
    (s.ctx.wcount.toNat < 33 → ¬ completesMessage s.ctx w →
      ∃ c, exec (.acceptWord w) s = .next (s.deliver c (.result .incomplete)) ∧
        c.lock = s.ctx.lock ∧ c.bitoff = s.ctx.bitoff ∧ c.acc = s.ctx.acc ∧
        c.wcount.toNat = s.ctx.wcount.toNat + 1 ∧
        ∀ i, i < 33 → c.bufRead i = if i = s.ctx.wcount.toNat then w else s.ctx.bufRead i)

/-- R158: WORD_STEP tests the preamble where WCOUNT is 0, runs ACCEPT_WORD, and drops lock on the frame-length violation. -/
def Obligations.WordStepCases : Prop :=
  ∀ (w : Word) (s : State),
    (s.ctx.wcount = 0 → preambleOk s.cfg w = false →
      exec (.wordStep w) s = .next (s.deliver { Context.reset with acc := s.ctx.acc }
        (.stepped (.resyncing .preamble) .syncLost))) ∧
    (33 ≤ s.ctx.wcount.toNat →
      exec (.wordStep w) s = .next (s.deliver { Context.reset with acc := s.ctx.acc }
        (.stepped (.error .frameLength) .syncLost))) ∧
    ((s.ctx.wcount = 0 → preambleOk s.cfg w = true) → s.ctx.wcount.toNat < 33 → completesMessage s.ctx w →
      exec (.wordStep w) s = .next (s.deliver s.ctx.asmDiscard (.stepped
        (decodeMessage s.cfg (s.ctx.buf.toList.set s.ctx.wcount.toNat w) (s.ctx.wcount.toNat + 1)) .word))) ∧
    ((s.ctx.wcount = 0 → preambleOk s.cfg w = true) → s.ctx.wcount.toNat < 33 → ¬ completesMessage s.ctx w →
      ∃ c, exec (.wordStep w) s = .next (s.deliver c (.stepped .incomplete .word)) ∧
        c.lock = s.ctx.lock ∧ c.bitoff = s.ctx.bitoff ∧ c.acc = s.ctx.acc ∧
        c.wcount.toNat = s.ctx.wcount.toNat + 1 ∧
        ∀ i, i < 33 → c.bufRead i = if i = s.ctx.wcount.toNat then w else s.ctx.bufRead i)

/-! ## The payload decoder -/

/-- R210, R212, R216, R217, R226, R227: DECODE's outcomes, in the order of its tests. -/
def Obligations.DecodeCases : Prop :=
  ∀ (buf : List Word) (n : BitVec 6) (s : State),
    let h := headerOfWords (wordAt buf 0) (wordAt buf 1)
    let lengthOk := 2 ≤ n.toNat ∧ n.toNat ≤ 33 ∧ n.toNat = 2 + h.frmlen.toNat
    (¬ lengthOk → exec (.decode buf n) s = .next (s.deliver s.ctx (.result (.error .frameLength)))) ∧
    (lengthOk → s.cfg.legalType h.msgtype = false →
      exec (.decode buf n) s = .next (s.deliver s.ctx (.result (.error .unknownType)))) ∧
    (lengthOk → s.cfg.legalType h.msgtype = true → h.frmlen = 0 →
      exec (.decode buf n) s = .next (s.deliver s.ctx (.result (.complete (.headerOnly h))))) ∧
    (lengthOk → s.cfg.legalType h.msgtype = true → h.frmlen ≠ 0 → h.msgtype = 1 ∨ h.msgtype = 9 →
      exec (.decode buf n) s = .next (s.deliver s.ctx (.result (.complete
        (.corrections h (countPresent (slots buf h.frmlen)) (slots buf h.frmlen)))))) ∧
    (lengthOk → s.cfg.legalType h.msgtype = true → h.frmlen ≠ 0 → h.msgtype ≠ 1 → h.msgtype ≠ 9 →
      exec (.decode buf n) s = .next (s.deliver s.ctx (.result (.complete
        (.raw h h.msgtype n (buf.take n.toNat))))))

/-- R212: no entry of `buf` at or above `n` is ever read. -/
def Obligations.DecodeReadsOnlyItsWords : Prop :=
  ∀ (p : Config.Params) (buf buf' : List Word) (n : Nat), (∀ i, i < n → buf[i]? = buf'[i]?) →
    decodeMessage p buf n = decodeMessage p buf' n

/-- R92: the four dispatch rows on the buffer whose header word 1 is the row's word. -/
def Obligations.DispatchRows : Prop :=
  ∀ (t : BitVec 6) (staid : BitVec 10) (parity : Parity) (s : State),
    let w := hw1Word s.cfg.preamble t staid parity
    let frmlen := frmlenOf (s.ctx.bufRead 1)
    let h := headerOfWords w (s.ctx.bufRead 1)
    let buf := s.ctx.buf.toList.set 0 w
    let corrections := Result.complete (.corrections h (countPresent (slots buf frmlen)) (slots buf frmlen))
    (t = 1 → s.cfg.legalType 1 = true → exec (.msgType1 staid parity) s = .next (s.deliver s.ctx (.result
      (if frmlen = 0 then .complete (.headerOnly h) else corrections)))) ∧
    (t = 9 → s.cfg.legalType 9 = true → exec (.msgType9 staid parity) s = .next (s.deliver s.ctx (.result
      (if frmlen = 0 then .complete (.headerOnly h) else corrections)))) ∧
    (s.cfg.legalType t = true → t ≠ 1 → t ≠ 9 →
      exec (.msgRaw t staid parity) s = .next (s.deliver s.ctx (.result
        (if frmlen = 0 then .complete (.headerOnly h)
         else .complete (.raw h t (BitVec.ofNat 6 (2 + frmlen.toNat)) (buf.take (2 + frmlen.toNat))))))) ∧
    (s.cfg.legalType t = false →
      exec (.msgUnknown t staid parity) s = .next (s.deliver s.ctx (.result (.error .unknownType))))

/-- R92, R210: the row that matches a stored header word 1 gives DECODE's result on that message. -/
def Obligations.DispatchRowIsWhatDecodeAnswers : Prop :=
  ∀ (w : Word) (i : Instr) (s : State), decodeDispatch s.cfg w = .ok i →
    exec i s = .next (s.deliver s.ctx (.result (decodeMessage s.cfg (s.ctx.buf.toList.set 0 w)
      (2 + (frmlenOf (s.ctx.bufRead 1)).toNat))))

/-- R218, R219, R220: 18 slots; which are present by the table on `r = L - 5c`; the record of a present one. -/
def Obligations.SlotsPresence : Prop :=
  ∀ (buf : List Word) (frmlen : BitVec 5) (s : State), ∃ l : List (Option Satellite),
    exec (.slots buf frmlen) s = .next (s.deliver s.ctx (.slots l)) ∧ l.length = 18 ∧
    ∀ c j : Nat, c < 6 → j < 3 →
      let r : Int := (frmlen.toNat : Int) - 5 * c
      let present := (j = 0 ∧ r ≥ 2) ∨ (j = 1 ∧ r ≥ 4) ∨ (j = 2 ∧ r ≥ 5)
      (present → l[3 * c + j]? = some (some (satellite
        ((clumpBits buf (2 + frmlen.toNat) c).extractLsb' (80 - 40 * j) 40)))) ∧
      (¬ present → l[3 * c + j]? = some none)

/-- R219: `nsat` by frame length, and the present slots are the prefix `0..nsat-1`. -/
def Obligations.PresentSlotsArePrefix : Prop :=
  ∀ (buf : List Word) (frmlen : BitVec 5),
    [0, 0, 1, 1, 2, 3, 3, 4, 4, 5, 6, 6, 7, 7, 8, 9, 9, 10, 10, 11, 12, 12, 13, 13, 14, 15, 15, 16, 16, 17, 18, 18][
      frmlen.toNat]? = some (countPresent (slots buf frmlen)).toNat ∧
    ∀ k, k < 18 → ((∃ f, (slots buf frmlen)[k]? = some (some f)) ↔ k < (countPresent (slots buf frmlen)).toNat)

/-- R221, R222, R223: the fields of a present slot; the scaled values are exact, nothing overflows or saturates. -/
def Obligations.SatelliteFieldsAndScaling : Prop :=
  ∀ f : SatBits,
    (satellite f).scale = f.extractLsb' 39 1 ∧ (satellite f).udre = f.extractLsb' 37 2 ∧
    (satellite f).ident = f.extractLsb' 32 5 ∧ (satellite f).prcRaw = f.extractLsb' 16 16 ∧
    (satellite f).rrcRaw = f.extractLsb' 8 8 ∧ (satellite f).iod = f.extractLsb' 0 8 ∧
    (satellite f).prcMm.toInt = (f.extractLsb' 16 16).toInt * (if f.getLsbD 39 then 320 else 20) ∧
    (satellite f).rrcMmps.toInt = (f.extractLsb' 8 8).toInt * (if f.getLsbD 39 then 32 else 2)

/-- R214: the Z-count in tenths of a second, with no overflow. -/
def Obligations.ZcountIsScaledExactly : Prop :=
  ∀ b0 b1 : Word, (recHeader b0 b1).zcountDs.toNat = 6 * (b1.toNat / 2 ^ 17) ∧
    (recHeader b0 b1).zcountDs.toNat ≤ 49146

/-- R88, R89: the five clump words, word by word, hold three 40-bit records; PRC3 is joined high byte first (R90). -/
def Obligations.ClumpWordsHoldThreeRecords : Prop :=
  ∀ (buf : List Word) (n c : Nat) (f1 f2 f3 : BitVec 1) (u1 u2 u3 : BitVec 2) (i1 i2 i3 : BitVec 5)
    (p1 p2 : BitVec 16) (p3hi p3lo r1 r2 r3 o1 o2 o3 : BitVec 8) (x0 x1 x2 x3 x4 : Parity),
    6 + 5 * c < n →
    wordAt buf (2 + 5 * c) = c0Word f1 u1 i1 p1 x0 → wordAt buf (3 + 5 * c) = c1Word r1 o1 f2 u2 i2 x1 →
    wordAt buf (4 + 5 * c) = c2Word p2 r2 x2 → wordAt buf (5 + 5 * c) = c3Word o2 f3 u3 i3 p3hi x3 →
    wordAt buf (6 + 5 * c) = c4Word p3lo r3 o3 x4 →
    slotBits buf n (3 * c) = satWord f1 u1 i1 p1 r1 o1 ∧ slotBits buf n (3 * c + 1) = satWord f2 u2 i2 p2 r2 o2 ∧
    slotBits buf n (3 * c + 2) = satWord f3 u3 i3 (p3hi ++ p3lo) r3 o3

/-- R231: satellites packed into a type 1 or 9 message are decoded as they were, in order, and every other slot is absent. -/
def Obligations.PackedSatellitesRoundTrip : Prop :=
  ∀ (recs : List SatBits) (t : BitVec 6) (staid : BitVec 10) (z : BitVec 13) (q h : BitVec 3) (parity : Nat → Parity)
    (s : State), 1 ≤ recs.length → recs.length ≤ 18 → t = 1 ∨ t = 9 → s.cfg.legalType t = true →
    let buf := messageWords s.cfg.preamble t staid z q h (packSats recs) parity
    exec (.decode buf (BitVec.ofNat 6 buf.length)) s = .next (s.deliver s.ctx (.result (.complete (.corrections
      { msgtype := t, staid := staid, zcount := z, zcountDs := BitVec.ofNat 16 (6 * z.toNat), seqnum := q,
        frmlen := BitVec.ofNat 5 ((40 * recs.length + 23) / 24), health := h }
      (BitVec.ofNat 5 recs.length)
      (recs.map (fun f => some (satellite f)) ++ List.replicate (18 - recs.length) none)))))

/-! ## The word codec -/

/-- R121: EXTRACT is `(v >> lo) mod 2^n`, and on a word it is the slice `w[lo+n-1:lo]`. -/
def Obligations.ExtractIsShiftAndMask : Prop :=
  (∀ (v lo n : Nat) (s : State), exec (.extract v lo n) s = .next (s.deliver s.ctx (.bits (v / 2 ^ lo % 2 ^ n)))) ∧
  ∀ (k : Nat) (w : BitVec k) (lo n : Nat), (extract w lo n).toNat = w.toNat / 2 ^ lo % 2 ^ n

/-- R123: DEINVERT inverts the 24 data bits exactly when `c30` is 1, never a parity bit; twice gives `A[29:0]` back. -/
def Obligations.DeinvertUndoesTheInversion : Prop :=
  ∀ (a : Candidate) (s : State), ∃ w, exec (.deinvert a) s = .next (s.deliver s.ctx (.word w)) ∧
    (∀ i, i < 6 → w.getLsbD i = a.getLsbD i) ∧
    (∀ i, 6 ≤ i → i < 30 → w.getLsbD i = (a.getLsbD i ^^ a.getLsbD 30)) ∧
    deinvert (a.extractLsb' 30 2 ++ w) = a.extractLsb' 0 30

/-- R124, R125: the six equations as masks on `X = (carries, source data, 0)`, and in the equivalent form on the received bits,
where the masks of D29 and D30 change. -/
def Obligations.ParityEquationsAreTheMasks : Prop :=
  ∀ (a : Candidate) (s : State), ∃ p, exec (.parity6 a) s = .next (s.deliver s.ctx (.parity p)) ∧
    let x : BitVec 32 := a.extractLsb' 30 2 ++ (deinvert a).extractLsb' 6 24 ++ (0 : BitVec 6)
    p.getLsbD 5 = xorAll (x &&& 0xBB1F3480) ∧ p.getLsbD 4 = xorAll (x &&& 0x5D8F9A40) ∧
    p.getLsbD 3 = xorAll (x &&& 0xAEC7CD00) ∧ p.getLsbD 2 = xorAll (x &&& 0x5763E680) ∧
    p.getLsbD 1 = xorAll (x &&& 0x6BB1F340) ∧ p.getLsbD 0 = xorAll (x &&& 0x8B7A89C0) ∧
    let r : BitVec 32 := a &&& 0xFFFFFFC0
    p.getLsbD 5 = xorAll (r &&& 0xBB1F3480) ∧ p.getLsbD 4 = xorAll (r &&& 0x5D8F9A40) ∧
    p.getLsbD 3 = xorAll (r &&& 0xAEC7CD00) ∧ p.getLsbD 2 = xorAll (r &&& 0x5763E680) ∧
    p.getLsbD 1 = xorAll (r &&& 0x2BB1F340) ∧ p.getLsbD 0 = xorAll (r &&& 0xCB7A89C0)

/-- R126, R127: the two predicates. -/
def Obligations.ParityOkAndPreambleOk : Prop :=
  ∀ (a : Candidate) (w : Word) (s : State),
    exec (.parityOk a) s = .next (s.deliver s.ctx (.flag (decide (parity6 a = a.extractLsb' 0 6)))) ∧
    exec (.preambleOk w) s = .next (s.deliver s.ctx (.flag (decide (w.toNat / 2 ^ 22 = s.cfg.preamble.toNat))))

/-- R128: one or two flipped bits among the 30 of a valid candidate, or one flipped carry bit, are detected; each data bit enters
3 or 5 of the six equations, no two in the same ones. The last clause, an error of four bits that passes, is the model's reading of
the rule's last sentence (assumption 21, DEDUCED). -/
def Obligations.OneOrTwoBitErrorsAreDetected : Prop :=
  (∀ a : Candidate, parityOk a = true →
    (∀ i, i < 32 → parityOk (a ^^^ ((1 : BitVec 32) <<< i)) = false) ∧
    ∀ i j, i < j → j < 30 → parityOk (a ^^^ ((1 : BitVec 32) <<< i) ^^^ ((1 : BitVec 32) <<< j)) = false) ∧
  (∀ i, 6 ≤ i → i < 30 →
    let weight := (List.range 6).countP fun k => (parity6 ((1 : BitVec 32) <<< i)).getLsbD k
    weight = 3 ∨ weight = 5) ∧
  (∀ i j, 6 ≤ i → i < 30 → 6 ≤ j → j < 30 →
    parity6 ((1 : BitVec 32) <<< i) = parity6 ((1 : BitVec 32) <<< j) → i = j) ∧
  ∃ (a : Candidate) (i j k l : Nat), i < j ∧ j < k ∧ k < l ∧ l < 30 ∧ parityOk a = true ∧
    parityOk (a ^^^ ((1 : BitVec 32) <<< i) ^^^ ((1 : BitVec 32) <<< j) ^^^ ((1 : BitVec 32) <<< k) ^^^
      ((1 : BitVec 32) <<< l)) = true

/-- R129: ENCODE_WORD gives the one transmitted word that, after these carry bits, passes the parity test and carries `d`. -/
def Obligations.EncodedWordIsReceivedAsItsData : Prop :=
  ∀ (d : Data) (x y : Bool) (s : State), ∃ t : Word,
    exec (.encodeWord d x y) s = .next (s.deliver s.ctx (.word t)) ∧
    ∀ w : Word, (parityOk (BitVec.ofBool x ++ BitVec.ofBool y ++ w) = true ∧
      (deinvert (BitVec.ofBool x ++ BitVec.ofBool y ++ w)).extractLsb' 6 24 = d) ↔ w = t

/-- R130: the fields of HEADER and SATREC. -/
def Obligations.HeaderAndSatrecFields : Prop :=
  (∀ (b0 b1 : Word) (s : State), exec (.header b0 b1) s = .next (s.deliver s.ctx (.header
    { preamble := b0.extractLsb' 22 8, msgtype := b0.extractLsb' 16 6, staid := b0.extractLsb' 6 10,
      zcount := b1.extractLsb' 17 13, seqnum := b1.extractLsb' 14 3, frmlen := b1.extractLsb' 9 5,
      health := b1.extractLsb' 6 3 }))) ∧
  ∀ (f : SatBits) (s : State), exec (.satrec f) s = .next (s.deliver s.ctx (.satellite
    { scale := f.extractLsb' 39 1, udre := f.extractLsb' 37 2, ident := f.extractLsb' 32 5,
      prc := (f.extractLsb' 16 16).toInt, rrc := (f.extractLsb' 8 8).toInt, iod := f.extractLsb' 0 8 }))

/-- R132: the scale bit selects small (0) or large (1), and large is 16 times small. -/
def Obligations.ScaleBitSelectsTheScale : Prop :=
  ∀ (k : BitVec 1) (s : State),
    exec (.prcScale k) s = .next (s.deliver s.ctx (.scale (if k = 0 then 20 else 320))) ∧
    exec (.rrcScale k) s = .next (s.deliver s.ctx (.scale (if k = 0 then 2 else 32))) ∧
    prcScale 1 = 16 * prcScale 0 ∧ rrcScale 1 = 16 * rrcScale 0

/-- R131: the exact rationals of the ROM in order, and its integer forms. -/
def Obligations.RomHoldsTheConstants : Prop :=
  Config.rom.map (fun e => (e.num, e.den)) =
    [(3, 5), (1, 50), (8, 25), (1, 500), (4, 125), (1, 100), (1, 10), (90, 32767), (180, 32767), (1, 10), (190, 1),
     (24, 1), (5, 1)] ∧
  Config.rom.map (fun e => (e.intForm, e.intDen)) =
    [(6, 1), (20, 1), (320, 1), (2, 1), (32, 1), (10, 1), (100, 1), (90, 32767), (180, 32767), (100, 1), (190000, 1),
     (24, 1), (5, 1)] ∧
  ∀ e ∈ Config.rom, e.num * e.unit.perSourceUnit * e.intDen = e.intForm * e.den

/-! ## Layouts, codes, the dumper -/

/-- R85, R86, R87: the layouts of the header words and of every word give back the fields they are written from. -/
def Obligations.HeaderWordLayouts : Prop :=
  ∀ s : State,
    (∀ t staid parity, exec (.hw1 t staid parity) s = .next (s.deliver s.ctx (.hw1
      { preamble := s.cfg.preamble, msgtype := t, staid := staid, parity := parity }))) ∧
    (∀ z q n h parity, exec (.hw2 z q n h parity) s = .next (s.deliver s.ctx (.hw2
      { zcount := z, seqnum := q, frmlen := n, health := h, parity := parity }))) ∧
    (∀ d parity, exec (.rawword d parity) s = .next (s.deliver s.ctx (.rawWord d parity)))

/-- R88, R89, R90: the layouts of the clump words and of the record give back their fields; PRC and RRC are read as two's
complement, the two bytes of PRC3 are not. -/
def Obligations.ClumpWordLayouts : Prop :=
  ∀ s : State,
    (∀ f u k c x, exec (.c0 f u k c x) s = .next (s.deliver s.ctx (.c0
      { scale1 := f, udre1 := u, ident1 := k, prc1 := c.toInt, parity := x }))) ∧
    (∀ r o f u k x, exec (.c1 r o f u k x) s = .next (s.deliver s.ctx (.c1
      { rrc1 := r.toInt, iod1 := o, scale2 := f, udre2 := u, ident2 := k, parity := x }))) ∧
    (∀ c r x, exec (.c2 c r x) s = .next (s.deliver s.ctx (.c2 { prc2 := c.toInt, rrc2 := r.toInt, parity := x }))) ∧
    (∀ o f u k h x, exec (.c3 o f u k h x) s = .next (s.deliver s.ctx (.c3
      { iod2 := o, scale3 := f, udre3 := u, ident3 := k, prc3Hi := h, parity := x }))) ∧
    (∀ l r o x, exec (.c4 l r o x) s = .next (s.deliver s.ctx (.c4
      { prc3Lo := l, rrc3 := r.toInt, iod3 := o, parity := x }))) ∧
    (∀ f u k c r o, exec (.satrec40 f u k c r o) s = .next (s.deliver s.ctx (.satellite
      { scale := f, udre := u, ident := k, prc := c.toInt, rrc := r.toInt, iod := o })))

/-- R84: the codes of results, causes and sync events. -/
def Obligations.PortCodes : Prop :=
  (∀ c, Result.incomplete.resCode = 0 ∧ (Result.resyncing c).resCode = 1 ∧ (Result.error c).resCode = 5 ∧
    (Result.refused c).resCode = 6) ∧
  (∀ h n l t k ws, (Result.complete (.headerOnly h)).resCode = 2 ∧ (Result.complete (.corrections h n l)).resCode = 3 ∧
    (Result.complete (.raw h t k ws)).resCode = 4) ∧
  (∀ r, Result.incomplete.causeCode = 0 ∧ (Result.complete r).causeCode = 0) ∧
  (∀ c, (Result.resyncing c).causeCode = c.code ∧ (Result.error c).causeCode = c.code ∧
    (Result.refused c).causeCode = c.code) ∧
  [Cause.parity, .preamble, .external, .frameLength, .unknownType, .badCommand, .notOnBoundary].map Cause.code =
    [1, 2, 3, 4, 5, 6, 7] ∧
  [SyncEvent.none, .lockAcquired, .word, .syncLost].map SyncEvent.code = [0, 1, 2, 3] ∧
  ∀ r : Result, r.resCode ≠ 7

/-- R260, R261: RENDER is total and pure; its text is the uninterpreted RENDER_TEXT of the record. -/
def Obligations.RenderIsTotalAndPure : Prop :=
  ∀ (r : Record) (s : State), exec (.render r) s = .next (s.deliver s.ctx (.text (Config.renderText r)))

/-! ## Decoding -/

/-- R82, R83: the command port's decoder takes `din[0]` or `din`, ignores every other bit, and knows four commands only. -/
def Obligations.CommandWordDecodes : Prop :=
  (∀ din : BitVec 30, decodeCommand (0#2 ++ din) = .feedBit (din.getLsbD 0) ∧
    decodeCommand (1#2 ++ din) = .feedWord din ∧ decodeCommand (2#2 ++ din) = .desync ∧
    decodeCommand (3#2 ++ din) = .reservedCmd) ∧
  ∀ c : BitVec 32, isCommand (decodeCommand c) = true

/-- A few words written out from the spec's encodings, read as the instructions they stand for. -/
def Obligations.WrittenWordsDecode : Prop :=
  decode .standard ⟨.command, 0b01011001100000010000000000011100⟩ = .ok (.feedWord 0x1981001C) ∧
  decode .standard ⟨.command, 0b00000000000000000000000000000001⟩ = .ok (.feedBit true) ∧
  decode .standard ⟨.dispatch, 0b011001100000010101010101010100⟩ = .ok (.msgType1 341 0x14) ∧
  decode .standard ⟨.dispatch, 0b011001100010010000000111101111⟩ = .ok (.msgType9 7 0x2F) ∧
  decode .standard ⟨.hw2, 0b000000110010100100100000001100⟩ = .ok (.hw2 101 1 4 0 0x0C) ∧
  decode .standard ⟨.c0, 0b001000110000000000001010011111⟩ = .ok (.c0 0 1 3 10 0x1F) ∧
  decode .standard ⟨.satrec40, 0xD1FF9C0599⟩ = .ok (.satrec40 1 2 17 0xFF9C 5 0x99) ∧
  decode .standard ⟨.dispatch, 0⟩ = .error .notHeaderWord1

/-- R81 to R92: for every well-formed instruction that has bits, decoding what the encoder writes gives the instruction back;
only the four rows whose operand is a structure have none. -/
def Obligations.DecodeOfEncodeIsIdentity : Prop :=
  ∀ (p : Config.Params) (i : Instr), i.wellFormed p = true →
    (∀ c, encode p i = some c → decode p c = .ok i) ∧
    (encode p i = none ↔ (∃ buf n, i = .decode buf n) ∨ (∃ buf n, i = .slots buf n) ∨
      (∃ v lo n, i = .extract v lo n) ∨ ∃ r, i = .render r)

/-! ## The machine -/

/-- R80, R81, R310: what the next port cycle presents is what the step executes; `rst` overrides the command; a cycle without a
command changes no state. Three things are the model's choice and no rule of the spec: that the cycles a caller will present stand in
a list, of which a step takes the first (assumption 1); the fourth clause, by which an empty list is a cycle without a command, and
that such a cycle is a step (assumptions 1 and 9); and the last clause, the model's own bench (assumption 4). -/
def Obligations.StepRunsTheDecodedInstruction : Prop :=
  ∀ s : State,
    (∀ y rest, s.bench = none → s.input = y :: rest → y.rst = true → step s = exec .reset { s with input := rest }) ∧
    (∀ y rest, s.bench = none → s.input = y :: rest → y.rst = false → y.cmdValid = true →
      step s = exec (decodeCommand (y.op ++ y.din)) { s with input := rest }) ∧
    (∀ y rest, s.bench = none → s.input = y :: rest → y.rst = false → y.cmdValid = false →
      step s = .next { s with input := rest, out := none, value := none }) ∧
    (s.bench = none → s.input = [] → step s = .next { s with out := none, value := none }) ∧
    (∀ c i, s.bench = some c → decode s.cfg c = .ok i → i.wellFormed s.cfg = true →
      step s = exec i { s with bench := none })

/-- The model's own adaptor (assumptions 1, 4, 10): a numeral of the table, once placed, is what the very next step runs. -/
def Obligations.PlacedRowIsWhatTheNextStepRuns : Prop :=
  ∀ (s : State) (nbits w : Nat) (c : Coded) (i : Instr), tableCoded nbits w = some c → decode s.cfg c = .ok i →
    step (s.withFetchWord nbits w) = exec i { s with bench := none }

/-- R285, R324: whatever the ports present, in whatever state, a step answers a next state. -/
def Obligations.PortsNeverStopTheBlock : Prop :=
  ∀ s : State, s.bench = none → ∃ t, step s = .next t ∧ t.bench = none

/-- R229, R285: every row of the table, with every operand, in every state, answers a next state. -/
def Obligations.EveryInstructionCompletes : Prop :=
  ∀ (i : Instr) (s : State), ∃ t, exec i s = .next t

/-- R30, R312: no instruction writes the parameters; nor the caller's cycles, nor the bench, which are the model's own. -/
def Obligations.ParametersAndInputAreNeverWritten : Prop :=
  ∀ (i : Instr) (s t : State), exec i s = .next t → t.cfg = s.cfg ∧ t.input = s.input ∧ t.bench = s.bench

/-- R58, R229: the pure operations and the layouts leave the whole Context as it is, and no port shows anything. -/
def Obligations.PureOperationsLeaveTheContext : Prop :=
  ∀ (i : Instr) (s t : State), isPure i = true → exec i s = .next t →
    t.ctx = s.ctx ∧ t.out = none ∧ ∃ v, t.value = some v

/-- R80: every command has outputs; the status outputs are the values before the clock edge; `word_o` is meaningful exactly with
LOCK_ACQUIRED and WORD, and is then the accepted stored word. -/
def Obligations.CommandOutputs : Prop :=
  ∀ (i : Instr) (s t : State), isCommand i = true → exec i s = .next t →
    ∃ o, t.out = some o ∧ o.lockO = s.ctx.lock ∧ o.bitoffO = s.ctx.bitoff ∧ o.wcountO = s.ctx.wcount ∧
      (o.wordO.isSome ↔ o.event = .word ∨ o.event = .lockAcquired) ∧
      (∀ b w, i = .feedBit b → o.wordO = some w → w = deinvert t.ctx.acc) ∧
      (∀ x w, i = .feedWord x → o.wordO = some w → w = x)

/-- R159: the pairing of sync events and results, in states that meet the invariants of R40. -/
def Obligations.EventsAndResultsAgree : Prop :=
  ∀ (i : Instr) (s t : State) (o : Outputs), isCommand i = true → s.ctx.Inv s.cfg → exec i s = .next t →
    t.out = some o →
    (o.event = .syncLost ↔ (∃ c, o.result = .resyncing c) ∨ o.result = .error .frameLength) ∧
    (o.event = .none → o.result = .incomplete ∨ ∃ c, o.result = .refused c) ∧
    (o.event = .lockAcquired → o.result = .incomplete)

/-- R60 (b), R30: the last cycle's outputs are not state: a step does not depend on them. -/
def Obligations.OutputsAreNotState : Prop :=
  ∀ (s : State) (o : Option Outputs) (v : Option Value), step { s with out := o, value := v } = step s

/-- R40, R311: the invariants hold right after reset, under any parameters and whatever the caller will present. -/
def Obligations.ResetMeetsTheInvariants : Prop :=
  ∀ (p : Config.Params) (l : List Cycle), State.Inv { State.reset with cfg := p, input := l }

/-- R40: every step from a state that meets the invariants gives a state that meets them. -/
def Obligations.EveryStepKeepsTheInvariants : Prop :=
  ∀ s t : State, s.Inv → step s = .next t → t.Inv

/-- R191: the capacity guard never fires in a state that meets the invariants, and no step reports FRAME_LENGTH. -/
def Obligations.CapacityGuardNeverFires : Prop :=
  ∀ (s t : State) (o : Outputs), s.Inv → step s = .next t → t.out = some o →
    s.ctx.wcount.toNat < 33 ∧ o.result ≠ .error .frameLength

/-- R186, R189, R190, R276: a record, and UNKNOWN_TYPE too, comes only with the last of the `2 + frame length` words, the frame
length being that of header word 2 (and the record's own); lock is kept and the buffer is empty afterwards. -/
def Obligations.CompletionNeedsEveryWordAndKeepsLock : Prop :=
  ∀ (s t : State) (o : Outputs), s.Inv → step s = .next t → t.out = some o →
    ((∃ r, o.result = .complete r) ∨ o.result = .error .unknownType) →
    (∃ w, o.wordO = some w ∧ 1 ≤ s.ctx.wcount.toNat ∧
      s.ctx.wcount.toNat + 1 = 2 + (frmlenOf (headerWord2After s.ctx w)).toNat ∧
      ∀ r, o.result = .complete r → (recordHeader r).frmlen = frmlenOf (headerWord2After s.ctx w)) ∧
    o.event = .word ∧ t.ctx.lock = true ∧ t.ctx.bitoff = 0 ∧ t.ctx.wcount = 0 ∧ ∀ i, i < 33 → t.ctx.bufRead i = 0

/-- R54, R155 to R157, R322: 30 FEED_BITs, bit 29 of the word first, are one word: nothing happens before the 30th, which tests
the candidate made of the last two bits before them and the word. -/
def Obligations.ThirtyBitsAreOneWord : Prop :=
  ∀ (s : State) (w : Word) (rest : List Cycle), s.bench = none → s.ctx.lock = true → s.ctx.bitoff = 0 →
    s.input = (bitsOfWord w).map feedBitCycle ++ rest →
    let a : Candidate := s.ctx.acc.extractLsb' 0 2 ++ w
    let x := wordStep s.cfg (deinvert a) { s.ctx with acc := a }
    (∀ k, 0 < k → k < 30 → ∃ u o, runSteps k s = .next u ∧ u.out = some o ∧ o.result = .incomplete ∧
      o.event = .none ∧ u.ctx.lock = true ∧ u.ctx.bitoff.toNat = k) ∧
    ∃ t o, runSteps 30 s = .next t ∧ t.input = rest ∧ t.out = some o ∧
      (parityOk a = true → t.ctx = x.1 ∧ o.result = x.2.1 ∧ o.event = x.2.2) ∧
      (parityOk a = false → t.ctx = { Context.reset with acc := a } ∧ o.result = .resyncing .parity ∧
        o.event = .syncLost)

/-- R186: once locked with an empty buffer, feeding exactly `2 + frame length` words yields exactly one message, DECODE's result on
them, with the last; afterwards the Context is locked and its buffer empty. -/
def Obligations.WholeMessageCompletesOnce : Prop :=
  ∀ (s : State) (w0 w1 : Word) (ws : List Word) (rest : List Cycle), s.Inv → s.ctx.lock = true → s.ctx.bitoff = 0 →
    s.ctx.wcount = 0 → preambleOk s.cfg w0 = true → ws.length = (frmlenOf w1).toNat →
    s.input = (w0 :: w1 :: ws).map feedWordCycle ++ rest →
    (∀ k, 0 < k → k < 2 + ws.length → ∃ u o, runSteps k s = .next u ∧ u.out = some o ∧ o.result = .incomplete) ∧
    ∃ t o, runSteps (2 + ws.length) s = .next t ∧ t.input = rest ∧ t.ctx = s.ctx ∧ t.out = some o ∧
      o.result = decodeMessage s.cfg (w0 :: w1 :: ws) (2 + ws.length)
end

