-- ==== Sys2Proof/Laws/State.lean ====
section
/-! SUPPORT. One lemma per field for each update of the state and of the Context. -/

namespace Sys2Proof.Machine

section Updates
variable (s : State) (c : Context) (r : Result) (e : SyncEvent) (w : Option Word) (v : Value)

@[simp] theorem reply_ctx : (s.reply c r e w).ctx = c := rfl
@[simp] theorem reply_cfg : (s.reply c r e w).cfg = s.cfg := rfl
@[simp] theorem reply_input : (s.reply c r e w).input = s.input := rfl
@[simp] theorem reply_bench : (s.reply c r e w).bench = s.bench := rfl
@[simp] theorem reply_value : (s.reply c r e w).value = none := rfl
@[simp] theorem reply_out : (s.reply c r e w).out = some ⟨r, e, w, s.ctx.lock, s.ctx.bitoff, s.ctx.wcount⟩ := rfl

@[simp] theorem quiet_ctx : (s.quiet c).ctx = c := rfl
@[simp] theorem quiet_cfg : (s.quiet c).cfg = s.cfg := rfl
@[simp] theorem quiet_input : (s.quiet c).input = s.input := rfl
@[simp] theorem quiet_bench : (s.quiet c).bench = s.bench := rfl
@[simp] theorem quiet_value : (s.quiet c).value = none := rfl
@[simp] theorem quiet_out : (s.quiet c).out = none := rfl

@[simp] theorem deliver_ctx : (s.deliver c v).ctx = c := rfl
@[simp] theorem deliver_cfg : (s.deliver c v).cfg = s.cfg := rfl
@[simp] theorem deliver_input : (s.deliver c v).input = s.input := rfl
@[simp] theorem deliver_bench : (s.deliver c v).bench = s.bench := rfl
@[simp] theorem deliver_value : (s.deliver c v).value = some v := rfl
@[simp] theorem deliver_out : (s.deliver c v).out = none := rfl

end Updates

section Stepped
variable (s : State) (w : Word) (x : Context × Result × SyncEvent)

@[simp] theorem replyStep_ctx : (s.replyStep w x).ctx = x.1 := rfl
@[simp] theorem replyStep_cfg : (s.replyStep w x).cfg = s.cfg := rfl
@[simp] theorem replyStep_input : (s.replyStep w x).input = s.input := rfl
@[simp] theorem replyStep_bench : (s.replyStep w x).bench = s.bench := rfl
@[simp] theorem replyStep_value : (s.replyStep w x).value = none := rfl
@[simp] theorem replyStep_out : (s.replyStep w x).out =
    some ⟨x.2.1, x.2.2.fromLock s.ctx.lock, wordOut (x.2.2.fromLock s.ctx.lock) w, s.ctx.lock, s.ctx.bitoff,
      s.ctx.wcount⟩ := rfl

end Stepped

section ContextUpdates
variable (c : Context) (i : Nat) (w : Word) (b : Bool)

@[simp] theorem shiftIn_lock : (c.shiftIn b).lock = c.lock := rfl
@[simp] theorem shiftIn_bitoff : (c.shiftIn b).bitoff = c.bitoff := rfl
@[simp] theorem shiftIn_buf : (c.shiftIn b).buf = c.buf := rfl
@[simp] theorem shiftIn_wcount : (c.shiftIn b).wcount = c.wcount := rfl

@[simp] theorem bufWrite_lock : (c.bufWrite i w).lock = c.lock := rfl
@[simp] theorem bufWrite_bitoff : (c.bufWrite i w).bitoff = c.bitoff := rfl
@[simp] theorem bufWrite_acc : (c.bufWrite i w).acc = c.acc := rfl
@[simp] theorem bufWrite_wcount : (c.bufWrite i w).wcount = c.wcount := rfl

@[simp] theorem append_lock : (c.append w).lock = c.lock := rfl
@[simp] theorem append_bitoff : (c.append w).bitoff = c.bitoff := rfl
@[simp] theorem append_acc : (c.append w).acc = c.acc := rfl
@[simp] theorem append_wcount : (c.append w).wcount = c.wcount + 1 := rfl

@[simp] theorem asmDiscard_lock : c.asmDiscard.lock = c.lock := rfl
@[simp] theorem asmDiscard_bitoff : c.asmDiscard.bitoff = c.bitoff := rfl
@[simp] theorem asmDiscard_acc : c.asmDiscard.acc = c.acc := rfl
@[simp] theorem asmDiscard_wcount : c.asmDiscard.wcount = 0 := rfl

@[simp] theorem dropLock_lock : c.dropLock.lock = false := rfl
@[simp] theorem dropLock_bitoff : c.dropLock.bitoff = 0 := rfl
@[simp] theorem dropLock_acc : c.dropLock.acc = c.acc := rfl
@[simp] theorem dropLock_buf : c.dropLock.buf = c.buf := rfl
@[simp] theorem dropLock_wcount : c.dropLock.wcount = c.wcount := rfl

@[simp] theorem loss_lock : c.loss.lock = false := rfl
@[simp] theorem loss_bitoff : c.loss.bitoff = 0 := rfl
@[simp] theorem loss_acc : c.loss.acc = c.acc := rfl
@[simp] theorem loss_wcount : c.loss.wcount = 0 := rfl

end ContextUpdates

end Sys2Proof.Machine
end

