-- ==== Sys2Proof/Laws/Ops.lean ====
section
/-! SUPPORT. For each shared operation, one lemma that says all it can do. -/

namespace Sys2Proof.Machine

/-! ## The buffer -/

theorem bufRead_bufWrite_same (c : Context) (i : Nat) (w : Word) (h : i < 33) : (c.bufWrite i w).bufRead i = w := by
  simp [Context.bufRead, Context.bufWrite, h]

theorem bufRead_bufWrite_other (c : Context) (i j : Nat) (w : Word) (h : j ≠ i) :
    (c.bufWrite i w).bufRead j = c.bufRead j := by
  simp only [Context.bufRead, Context.bufWrite]
  split
  · rw [Vector.getElem_setIfInBounds_ne _ (Ne.symm h)]
  · rfl

@[simp] theorem bufRead_asmDiscard (c : Context) (i : Nat) : c.asmDiscard.bufRead i = 0 := by
  simp [Context.bufRead, Context.asmDiscard]

@[simp] theorem bufRead_loss (c : Context) (i : Nat) : c.loss.bufRead i = 0 := bufRead_asmDiscard _ i

theorem bufRead_append (c : Context) (w : Word) (i : Nat) (h : c.wcount.toNat < 33) :
    (c.append w).bufRead i = if i = c.wcount.toNat then w else c.bufRead i := by
  change (c.bufWrite c.wcount.toNat w).bufRead i = _
  split
  · subst i; exact bufRead_bufWrite_same c _ w h
  · exact bufRead_bufWrite_other c _ i w ‹_›

theorem append_wcount_toNat (c : Context) (w : Word) (h : c.wcount.toNat < 33) :
    (c.append w).wcount.toNat = c.wcount.toNat + 1 := by
  have h1 : (1 : BitVec 6).toNat = 1 := rfl
  rw [append_wcount, BitVec.toNat_add, h1]; omega

/-- Two Contexts that agree on the scalar fields and on every entry of BUF are equal. -/
theorem context_ext_reads (c d : Context) (hl : c.lock = d.lock) (hb : c.bitoff = d.bitoff) (ha : c.acc = d.acc)
    (hw : c.wcount = d.wcount) (hr : ∀ i, i < 33 → c.bufRead i = d.bufRead i) : c = d := by
  have hbuf : c.buf = d.buf := Vector.ext fun i hi => by simpa [Context.bufRead, hi] using hr i hi
  cases c; cases d; simp_all

theorem wordAt_toList (c : Context) (i : Nat) : wordAt c.buf.toList i = c.bufRead i := by
  unfold wordAt Context.bufRead
  split
  · rw [List.getD_eq_getElem _ _ (by simpa using ‹i < 33›)]; simp
  · exact List.getD_eq_default _ _ (by simpa using ‹¬ i < 33›)

/-! ## The payload decoder -/

/-- The four outcomes of the dispatch, never a FRAME_LENGTH error (R230). -/
theorem dispatchRecord_cases (p : Config.Params) (buf : List Word) (n : Nat) :
    dispatchRecord p buf n = .error .unknownType ∨ ∃ r, dispatchRecord p buf n = .complete r := by
  simp only [dispatchRecord]
  split
  · exact .inl rfl
  · right; split
    · exact ⟨_, rfl⟩
    · split <;> exact ⟨_, rfl⟩

/-- A record carries the frame length of header word 2 (R213). -/
theorem dispatchRecord_frmlen (p : Config.Params) (buf : List Word) (n : Nat) (r : Record)
    (h : dispatchRecord p buf n = .complete r) : (recordHeader r).frmlen = frmlenOf (wordAt buf 1) := by
  simp only [dispatchRecord] at h
  split at h
  · cases h
  · split at h
    · cases h; rfl
    · split at h <;> (cases h; rfl)

theorem decodeMessage_of_length (p : Config.Params) (buf : List Word) (n : Nat) (h2 : 2 ≤ n) (h33 : n ≤ 33)
    (hn : n = 2 + (frmlenOf (wordAt buf 1)).toNat) : decodeMessage p buf n = dispatchRecord p buf n := by
  have h : ¬ (n < 2 ∨ n > 33) := by omega
  simp only [decodeMessage, h, if_false, ← hn, ne_eq, not_true_eq_false]

theorem decodeMessage_bad_length (p : Config.Params) (buf : List Word) (n : Nat)
    (h : n < 2 ∨ n > 33 ∨ n ≠ 2 + (frmlenOf (wordAt buf 1)).toNat) : decodeMessage p buf n = .error .frameLength := by
  unfold decodeMessage
  split
  · rfl
  · rw [if_pos (by omega)]

@[simp] theorem slots_length (buf : List Word) (frmlen : BitVec 5) : (slots buf frmlen).length = 18 := by
  simp [slots]

/-- The slot `k` of SLOTS: present by R219, and then the record of R220. -/
theorem slots_getElem? (buf : List Word) (frmlen : BitVec 5) (k : Nat) (h : k < 18) :
    (slots buf frmlen)[k]? = some (if slotPresent frmlen.toNat k then
      some (satellite (slotBits buf (Config.hdrWords + frmlen.toNat) k)) else none) := by
  simp only [slots, List.getElem?_map, List.getElem?_range h, Option.map_some]

/-- `nsat` counts the slots that R219 calls present; the count fits in 5 bits. -/
theorem countPresent_slots (buf : List Word) (frmlen : BitVec 5) :
    (countPresent (slots buf frmlen)).toNat = (List.range 18).countP (slotPresent frmlen.toNat) := by
  have hc : (slots buf frmlen).countP (·.isSome) = (List.range 18).countP (slotPresent frmlen.toNat) := by
    simp only [slots, List.countP_map]
    congr 1
    funext k
    simp only [Function.comp_apply]
    cases slotPresent frmlen.toNat k <;> rfl
  have hle : (List.range 18).countP (slotPresent frmlen.toNat) ≤ 18 := List.countP_le_length
  rw [countPresent, hc, BitVec.toNat_ofNat]
  omega

/-! ## The assembler -/

theorem messageComplete_iff (c : Context) :
    c.messageComplete = true ↔ 2 ≤ c.wcount.toNat ∧ c.wcount.toNat = 2 + (frmlenOf (c.bufRead 1)).toNat := by
  simp [Context.messageComplete]

/-- ACCEPT_WORD: the guard, a completed message, or one more word (R180). -/
theorem acceptWord_cases (p : Config.Params) (w : Word) (c : Context) :
    (33 ≤ c.wcount.toNat ∧ acceptWord p w c = (c.asmDiscard, .error .frameLength)) ∨
    (c.wcount.toNat < 33 ∧ (c.append w).messageComplete = true ∧
      acceptWord p w c = ((c.append w).asmDiscard,
        dispatchRecord p (c.append w).buf.toList (c.append w).wcount.toNat)) ∨
    (c.wcount.toNat < 33 ∧ (c.append w).messageComplete = false ∧ acceptWord p w c = (c.append w, .incomplete)) := by
  by_cases h : 33 ≤ c.wcount.toNat
  · exact .inl ⟨h, by simp [acceptWord, h]⟩
  · have hlt : c.wcount.toNat < 33 := by omega
    right
    cases hc : (c.append w).messageComplete
    · exact .inr ⟨hlt, rfl, by simp [acceptWord, h, hc]⟩
    · refine .inl ⟨hlt, rfl, ?_⟩
      obtain ⟨h2, hn⟩ := (messageComplete_iff _).mp hc
      have hs := append_wcount_toNat c w hlt
      rw [← decodeMessage_of_length p _ _ h2 (by omega) (by rw [wordAt_toList]; exact hn)]
      simp [acceptWord, h, hc]

/-- ACCEPT_WORD never writes LOCK, BITOFF or ACC (R189, R23). -/
theorem acceptWord_keeps (p : Config.Params) (w : Word) (c : Context) :
    (acceptWord p w c).1.lock = c.lock ∧ (acceptWord p w c).1.bitoff = c.bitoff ∧ (acceptWord p w c).1.acc = c.acc := by
  rcases acceptWord_cases p w c with h | h | h
  · rw [h.2]; exact ⟨rfl, rfl, rfl⟩
  · rw [h.2.2]; exact ⟨rfl, rfl, rfl⟩
  · rw [h.2.2]; exact ⟨rfl, rfl, rfl⟩

/-- ACCEPT_WORD does not read ACC (R23). -/
theorem acceptWord_withAcc (p : Config.Params) (w : Word) (c : Context) (a : Candidate) :
    acceptWord p w { c with acc := a } = ({ (acceptWord p w c).1 with acc := a }, (acceptWord p w c).2) := by
  have ha : ({ c with acc := a } : Context).append w = { c.append w with acc := a } := rfl
  have hm : ({ c.append w with acc := a } : Context).messageComplete = (c.append w).messageComplete := rfl
  simp only [acceptWord, ha, hm]
  by_cases h : 33 ≤ c.wcount.toNat
  · simp only [h, if_true]; rfl
  · simp only [h, if_false]
    cases (c.append w).messageComplete <;> rfl

/-! ## The synchronizer -/

/-- WORD_STEP: the preamble is missing, the guard, a completed message, or one more word (R158). -/
theorem wordStep_cases (p : Config.Params) (w : Word) (c : Context) :
    (c.wcount = 0 ∧ preambleOk p w = false ∧ wordStep p w c = (c.loss, .resyncing .preamble, .syncLost)) ∨
    (33 ≤ c.wcount.toNat ∧ wordStep p w c = (c.loss, .error .frameLength, .syncLost)) ∨
    ((c.wcount = 0 → preambleOk p w = true) ∧ c.wcount.toNat < 33 ∧ (c.append w).messageComplete = true ∧
      wordStep p w c = ((c.append w).asmDiscard,
        dispatchRecord p (c.append w).buf.toList (c.append w).wcount.toNat, .word)) ∨
    ((c.wcount = 0 → preambleOk p w = true) ∧ c.wcount.toNat < 33 ∧ (c.append w).messageComplete = false ∧
      wordStep p w c = (c.append w, .incomplete, .word)) := by
  by_cases hp : c.wcount = 0 ∧ preambleOk p w = false
  · exact .inl ⟨hp.1, hp.2, by simp only [wordStep, if_pos hp]⟩
  · have hpre : c.wcount = 0 → preambleOk p w = true := fun h0 => by
      cases hw : preambleOk p w
      · exact absurd ⟨h0, hw⟩ hp
      · rfl
    rcases acceptWord_cases p w c with ⟨h, he⟩ | ⟨h, hc, he⟩ | ⟨h, hc, he⟩
    · exact .inr (.inl ⟨h, by simp only [wordStep, if_neg hp, he, if_true]; rfl⟩)
    · refine .inr (.inr (.inl ⟨hpre, h, hc, ?_⟩))
      have hr : dispatchRecord p (c.append w).buf.toList (c.append w).wcount.toNat ≠ .error .frameLength := by
        rcases dispatchRecord_cases p (c.append w).buf.toList (c.append w).wcount.toNat with hd | ⟨r, hd⟩ <;>
          rw [hd] <;> exact fun h => nomatch h
      simp only [wordStep, if_neg hp, he, if_neg hr]
    · exact .inr (.inr (.inr ⟨hpre, h, hc, by simp only [wordStep, if_neg hp, he, reduceCtorEq, if_false]⟩))

/-- WORD_STEP never writes ACC (R23). -/
@[simp] theorem wordStep_acc (p : Config.Params) (w : Word) (c : Context) : (wordStep p w c).1.acc = c.acc := by
  rcases wordStep_cases p w c with h | h | h | h
  · rw [h.2.2]; rfl
  · rw [h.2]; rfl
  · rw [h.2.2.2]; rfl
  · rw [h.2.2.2]; rfl

/-- WORD_STEP does not read ACC (R23). -/
theorem wordStep_withAcc (p : Config.Params) (w : Word) (c : Context) (a : Candidate) :
    wordStep p w { c with acc := a } = ({ (wordStep p w c).1 with acc := a }, (wordStep p w c).2) := by
  have hp : (({ c with acc := a } : Context).wcount = 0 ∧ preambleOk p w = false) ↔
      (c.wcount = 0 ∧ preambleOk p w = false) := Iff.rfl
  unfold wordStep
  rw [acceptWord_withAcc p w c a]
  by_cases h : c.wcount = 0 ∧ preambleOk p w = false
  · rw [if_pos (hp.mpr h), if_pos h]; rfl
  · rw [if_neg (fun x => h (hp.mp x)), if_neg h]
    dsimp only
    split <;> rfl

/-! ## One step -/

/-- A command word always decodes (R82). -/
theorem decode_command (p : Config.Params) (c : BitVec 32) : decode p ⟨.command, c.toNat⟩ = .ok (decodeCommand c) := by
  have h : c.toNat < 2 ^ Form.width .command := c.isLt
  simp only [decode, h, if_true, decodeForm, BitVec.ofNat_toNat, BitVec.setWidth_eq]

/-- FEED_BIT: one of R153, R154, R155, R156, R157. -/
theorem execFeedBit_cases (b : Bool) (s : State) :
    (s.ctx.lock = false ∧ lockPoint s.cfg (s.ctx.shiftIn b).acc = true ∧
      execFeedBit b s = .next (s.replyStep (deinvert (s.ctx.shiftIn b).acc)
        (wordStep s.cfg (deinvert (s.ctx.shiftIn b).acc) { s.ctx.shiftIn b with lock := true, bitoff := 0 }))) ∨
    (s.ctx.lock = false ∧ lockPoint s.cfg (s.ctx.shiftIn b).acc = false ∧
      execFeedBit b s = .next (s.reply (s.ctx.shiftIn b) .incomplete .none none)) ∨
    (s.ctx.lock = true ∧ s.ctx.bitoff ≠ 29 ∧
      execFeedBit b s =
        .next (s.reply { s.ctx.shiftIn b with bitoff := s.ctx.bitoff + 1 } .incomplete .none none)) ∨
    (s.ctx.lock = true ∧ s.ctx.bitoff = 29 ∧ parityOk (s.ctx.shiftIn b).acc = false ∧
      execFeedBit b s = .next (s.reply (s.ctx.shiftIn b).loss (.resyncing .parity) .syncLost none)) ∨
    (s.ctx.lock = true ∧ s.ctx.bitoff = 29 ∧ parityOk (s.ctx.shiftIn b).acc = true ∧
      execFeedBit b s = .next (s.replyStep (deinvert (s.ctx.shiftIn b).acc)
        (wordStep s.cfg (deinvert (s.ctx.shiftIn b).acc) { s.ctx.shiftIn b with bitoff := 0 }))) := by
  have hl' : (s.ctx.shiftIn b).lock = s.ctx.lock := rfl
  have hb' : (s.ctx.shiftIn b).bitoff = s.ctx.bitoff := rfl
  cases hl : s.ctx.lock
  · cases hp : lockPoint s.cfg (s.ctx.shiftIn b).acc
    · exact .inr (.inl ⟨rfl, rfl, by simp only [execFeedBit, hl', hl, hp, if_true, Bool.false_eq_true, if_false]⟩)
    · exact .inl ⟨rfl, rfl, by simp only [execFeedBit, hl', hl, hp, if_true]⟩
  · right; right
    by_cases hb : s.ctx.bitoff = 29
    · right
      cases hp : parityOk (s.ctx.shiftIn b).acc
      · exact .inl ⟨rfl, hb, rfl, by
          simp only [execFeedBit, hl', hl, hb', hb, hp, Config.lastBitoff, ne_eq, not_true_eq_false, if_true,
            Bool.true_eq_false, if_false]; rfl⟩
      · exact .inr ⟨rfl, hb, rfl, by
          simp only [execFeedBit, hl', hl, hb', hb, hp, Config.lastBitoff, ne_eq, not_true_eq_false,
            Bool.true_eq_false, if_false]⟩
    · exact .inl ⟨rfl, hb, by
        simp only [execFeedBit, hl', hl, hb', hb, Config.lastBitoff, ne_eq, not_false_eq_true, if_true,
          Bool.true_eq_false, if_false]⟩

/-- `fetch` with an empty bench reads the ports. -/
theorem fetch_ports (s : State) (h : s.bench = none) :
    fetch s = match s.input with
      | [] => (none, s)
      | y :: rest => (y.coded, { s with input := rest }) := by
  cases s; cases h; rfl

end Sys2Proof.Machine
end

