-- ==== Sys2Proof/Laws/PerInstr.lean ====
section
/-! SUPPORT. Statements made for each constructor of `Instr`. -/

/-- What the encoder writes fits the form it names: no bit is set beyond the width the table gives the row. -/
def Sys2Proof.Laws.EncodingFits.Statement (i : Sys2Proof.Instr) : Prop :=
  ∀ (p : Sys2Proof.Config.Params) (c : Sys2Proof.Coded), Sys2Proof.encode p i = some c → c.bits < 2 ^ c.form.width

namespace Sys2Proof.Laws

/-- Where the encoder writes a bit vector of the form's width, the bits fit. -/
theorem encodingFits_of_bitVec (i : Instr) (f : Form) (v : Config.Params → BitVec f.width)
    (h : ∀ p, encode p i = some ⟨f, (v p).toNat⟩) : EncodingFits.Statement i := by
  intro p c hc
  rw [h p] at hc
  cases hc
  exact (v p).isLt

/-- An instruction that has no bits fits any form. -/
theorem encodingFits_of_none (i : Instr) (h : ∀ p, encode p i = none) : EncodingFits.Statement i := by
  intro p c hc
  rw [h p] at hc
  cases hc

theorem EncodingFits.feedBit (b : Bool) : EncodingFits.Statement (.feedBit b) :=
  encodingFits_of_bitVec _ .command (fun _ => commandWord 0 (BitVec.zeroExtend 30 (BitVec.ofBool b))) fun _ => rfl

theorem EncodingFits.feedWord (w : Word) : EncodingFits.Statement (.feedWord w) :=
  encodingFits_of_bitVec _ .command (fun _ => commandWord 1 w) fun _ => rfl

theorem EncodingFits.desync : EncodingFits.Statement .desync :=
  encodingFits_of_bitVec _ .command (fun _ => commandWord 2 0) fun _ => rfl

theorem EncodingFits.reservedCmd : EncodingFits.Statement .reservedCmd :=
  encodingFits_of_bitVec _ .command (fun _ => commandWord 3 0) fun _ => rfl

theorem EncodingFits.reset : EncodingFits.Statement .reset :=
  encodingFits_of_bitVec _ .rst (fun _ => 1#1) fun _ => rfl

theorem EncodingFits.msgType1 (staid : BitVec 10) (parity : Parity) : EncodingFits.Statement (.msgType1 staid parity) :=
  encodingFits_of_bitVec _ .dispatch (fun p => hw1Word p.preamble 1 staid parity) fun _ => rfl

theorem EncodingFits.msgType9 (staid : BitVec 10) (parity : Parity) : EncodingFits.Statement (.msgType9 staid parity) :=
  encodingFits_of_bitVec _ .dispatch (fun p => hw1Word p.preamble 9 staid parity) fun _ => rfl

theorem EncodingFits.msgRaw (msgtype : BitVec 6) (staid : BitVec 10) (parity : Parity) :
    EncodingFits.Statement (.msgRaw msgtype staid parity) :=
  encodingFits_of_bitVec _ .dispatch (fun p => hw1Word p.preamble msgtype staid parity) fun _ => rfl

theorem EncodingFits.msgUnknown (msgtype : BitVec 6) (staid : BitVec 10) (parity : Parity) :
    EncodingFits.Statement (.msgUnknown msgtype staid parity) :=
  encodingFits_of_bitVec _ .dispatch (fun p => hw1Word p.preamble msgtype staid parity) fun _ => rfl

theorem EncodingFits.hw1 (msgtype : BitVec 6) (staid : BitVec 10) (parity : Parity) :
    EncodingFits.Statement (.hw1 msgtype staid parity) :=
  encodingFits_of_bitVec _ .hw1 (fun p => hw1Word p.preamble msgtype staid parity) fun _ => rfl

theorem EncodingFits.hw2 (zcount : BitVec 13) (seqnum : BitVec 3) (frmlen : BitVec 5) (health : BitVec 3) (parity : Parity) :
    EncodingFits.Statement (.hw2 zcount seqnum frmlen health parity) :=
  encodingFits_of_bitVec _ .hw2 (fun _ => hw2Word zcount seqnum frmlen health parity) fun _ => rfl

theorem EncodingFits.c0 (scale1 : BitVec 1) (udre1 : BitVec 2) (ident1 : BitVec 5) (prc1 : BitVec 16) (parity : Parity) :
    EncodingFits.Statement (.c0 scale1 udre1 ident1 prc1 parity) :=
  encodingFits_of_bitVec _ .c0 (fun _ => c0Word scale1 udre1 ident1 prc1 parity) fun _ => rfl

theorem EncodingFits.c1 (rrc1 iod1 : BitVec 8) (scale2 : BitVec 1) (udre2 : BitVec 2) (ident2 : BitVec 5) (parity : Parity) :
    EncodingFits.Statement (.c1 rrc1 iod1 scale2 udre2 ident2 parity) :=
  encodingFits_of_bitVec _ .c1 (fun _ => c1Word rrc1 iod1 scale2 udre2 ident2 parity) fun _ => rfl

theorem EncodingFits.c2 (prc2 : BitVec 16) (rrc2 : BitVec 8) (parity : Parity) :
    EncodingFits.Statement (.c2 prc2 rrc2 parity) :=
  encodingFits_of_bitVec _ .c2 (fun _ => c2Word prc2 rrc2 parity) fun _ => rfl

theorem EncodingFits.c3 (iod2 : BitVec 8) (scale3 : BitVec 1) (udre3 : BitVec 2) (ident3 : BitVec 5) (prc3Hi : BitVec 8) (parity : Parity) :
    EncodingFits.Statement (.c3 iod2 scale3 udre3 ident3 prc3Hi parity) :=
  encodingFits_of_bitVec _ .c3 (fun _ => c3Word iod2 scale3 udre3 ident3 prc3Hi parity) fun _ => rfl

theorem EncodingFits.c4 (prc3Lo rrc3 iod3 : BitVec 8) (parity : Parity) :
    EncodingFits.Statement (.c4 prc3Lo rrc3 iod3 parity) :=
  encodingFits_of_bitVec _ .c4 (fun _ => c4Word prc3Lo rrc3 iod3 parity) fun _ => rfl

theorem EncodingFits.satrec40 (scale : BitVec 1) (udre : BitVec 2) (ident : BitVec 5) (prc : BitVec 16) (rrc iod : BitVec 8) :
    EncodingFits.Statement (.satrec40 scale udre ident prc rrc iod) :=
  encodingFits_of_bitVec _ .satrec40 (fun _ => satWord scale udre ident prc rrc iod) fun _ => rfl

theorem EncodingFits.rawword (data : Data) (parity : Parity) : EncodingFits.Statement (.rawword data parity) :=
  encodingFits_of_bitVec _ .rawword (fun _ => rawWord data parity) fun _ => rfl

theorem EncodingFits.wordStep (w : Word) : EncodingFits.Statement (.wordStep w) :=
  encodingFits_of_bitVec _ .wordStep (fun _ => w) fun _ => rfl

theorem EncodingFits.loss : EncodingFits.Statement .loss := encodingFits_of_bitVec _ .loss (fun _ => 0#0) fun _ => rfl

theorem EncodingFits.acceptWord (w : Word) : EncodingFits.Statement (.acceptWord w) :=
  encodingFits_of_bitVec _ .acceptWord (fun _ => w) fun _ => rfl

theorem EncodingFits.asmDiscard : EncodingFits.Statement .asmDiscard :=
  encodingFits_of_bitVec _ .asmDiscard (fun _ => 0#0) fun _ => rfl

theorem EncodingFits.decode (buf : List Word) (n : BitVec 6) : EncodingFits.Statement (.decode buf n) :=
  encodingFits_of_none _ fun _ => rfl

theorem EncodingFits.slots (buf : List Word) (frmlen : BitVec 5) : EncodingFits.Statement (.slots buf frmlen) :=
  encodingFits_of_none _ fun _ => rfl

theorem EncodingFits.extract (v lo n : Nat) : EncodingFits.Statement (.extract v lo n) :=
  encodingFits_of_none _ fun _ => rfl

theorem EncodingFits.deinvert (a : Candidate) : EncodingFits.Statement (.deinvert a) :=
  encodingFits_of_bitVec _ .deinvert (fun _ => a) fun _ => rfl

theorem EncodingFits.parity6 (a : Candidate) : EncodingFits.Statement (.parity6 a) :=
  encodingFits_of_bitVec _ .parity6 (fun _ => a) fun _ => rfl

theorem EncodingFits.parityOk (a : Candidate) : EncodingFits.Statement (.parityOk a) :=
  encodingFits_of_bitVec _ .parityOk (fun _ => a) fun _ => rfl

theorem EncodingFits.preambleOk (w : Word) : EncodingFits.Statement (.preambleOk w) :=
  encodingFits_of_bitVec _ .preambleOk (fun _ => w) fun _ => rfl

theorem EncodingFits.encodeWord (d : Data) (c29 c30 : Bool) : EncodingFits.Statement (.encodeWord d c29 c30) :=
  encodingFits_of_bitVec _ .encodeWord (fun _ => encodeWordOperand d c29 c30) fun _ => rfl

theorem EncodingFits.header (b0 b1 : Word) : EncodingFits.Statement (.header b0 b1) :=
  encodingFits_of_bitVec _ .header (fun _ => b0 ++ b1) fun _ => rfl

theorem EncodingFits.satrec (f : SatBits) : EncodingFits.Statement (.satrec f) :=
  encodingFits_of_bitVec _ .satrec (fun _ => f) fun _ => rfl

theorem EncodingFits.prcScale (s : BitVec 1) : EncodingFits.Statement (.prcScale s) :=
  encodingFits_of_bitVec _ .prcScale (fun _ => s) fun _ => rfl

theorem EncodingFits.rrcScale (s : BitVec 1) : EncodingFits.Statement (.rrcScale s) :=
  encodingFits_of_bitVec _ .rrcScale (fun _ => s) fun _ => rfl

theorem EncodingFits.render (r : Record) : EncodingFits.Statement (.render r) := encodingFits_of_none _ fun _ => rfl

end Sys2Proof.Laws
end

