-- ==== Sys2Proof/Tests/Slice0.lean ====
section
/-! SUPPORT. Tests. Expected values are those of `95_test_vectors.md`, named at each test, or are worked out by hand from the rule
that is named; none was taken from the model. Then, for each statement that has hypotheses, a witness that meets them. -/

open Sys2Proof Sys2Proof.Machine

namespace Sys2Proof.Tests

/-! ## Helpers -/

/-- A state with the given Context fields and first words of BUF, the default parameters and nothing presented. -/
def at_ (lock : Bool) (bitoff : BitVec 5) (acc : Candidate) (words : List Word) (wcount : BitVec 6) : State :=
  { State.reset with ctx :=
      { lock, bitoff, acc, wcount
        buf := words.zipIdx.foldl (fun v x => v.setIfInBounds x.2 x.1) (Vector.replicate 33 0) } }

/-- A state at rest: as many words as are in the buffer. -/
def atRest (lock : Bool) (bitoff : BitVec 5) (acc : Candidate) (words : List Word) : State :=
  at_ lock bitoff acc words (BitVec.ofNat 6 words.length)

/-- The next state, if there is one. -/
def nextOf : Host.Outcome State Fault Refusal → Option State
  | .next t => some t
  | .fault _ => none
  | .refused _ => none

/-- LOCK, BITOFF, ACC and WCOUNT after the instruction, as the vectors write them. -/
def snap (i : Instr) (s : State) : Option (Bool × BitVec 5 × Candidate × BitVec 6) :=
  (nextOf (exec i s)).map fun t => (t.ctx.lock, t.ctx.bitoff, t.ctx.acc, t.ctx.wcount)

/-- Result, sync event and `word_o` of a command. -/
def shown (i : Instr) (s : State) : Option (Result × SyncEvent × Option Word) :=
  (nextOf (exec i s)).bind fun t => t.out.map fun o => (o.result, o.event, o.wordO)

/-- What an internal operation delivers. -/
def given (i : Instr) (s : State) : Option Value := (nextOf (exec i s)).bind (·.value)

/-- The standard parameters. -/
abbrev std : Config.Params := Config.Params.standard

/-! ## Well-formedness: one ill-formed term for each check -/

theorem test_illformed_msgType1 : (Instr.msgType1 0 0).wellFormed ⟨0x66, 0⟩ = false := by decide
theorem test_illformed_msgType9 : (Instr.msgType9 0 0).wellFormed ⟨0x66, 0⟩ = false := by decide
theorem test_illformed_msgRaw_illegal : (Instr.msgRaw 0 0 0).wellFormed std = false := by decide
theorem test_illformed_msgRaw_type1 : (Instr.msgRaw 1 0 0).wellFormed std = false := by decide
theorem test_illformed_msgRaw_type9 : (Instr.msgRaw 9 0 0).wellFormed std = false := by decide
theorem test_illformed_msgUnknown : (Instr.msgUnknown 1 0 0).wellFormed std = false := by decide
theorem test_illformed_decode : (Instr.decode [0, 0] 3).wellFormed std = false := by decide
theorem test_illformed_slots : (Instr.slots [0, 0] 1).wellFormed std = false := by decide
theorem test_illformed_extract_range : (Instr.extract 0 40 1).wellFormed std = false := by decide
theorem test_illformed_extract_value : (Instr.extract (2 ^ 40) 0 1).wellFormed std = false := by decide
theorem test_illformed_render_slots :
    (Instr.render (.corrections ⟨1, 0, 0, 0, 0, 2, 0⟩ 0 [])).wellFormed std = false := by decide
theorem test_illformed_render_nsat :
    (Instr.render (.corrections ⟨1, 0, 0, 0, 0, 2, 0⟩ 1 (List.replicate 18 none))).wellFormed std = false := by decide
theorem test_illformed_render_nwords :
    (Instr.render (.raw ⟨3, 0, 0, 0, 0, 1, 0⟩ 3 2 [0, 0])).wellFormed std = false := by decide
theorem test_illformed_render_words :
    (Instr.render (.raw ⟨3, 0, 0, 0, 0, 1, 0⟩ 3 3 [0, 0])).wellFormed std = false := by decide
theorem test_illformed_render_type :
    (Instr.render (.raw ⟨3, 0, 0, 0, 0, 1, 0⟩ 4 3 [0, 0, 0])).wellFormed std = false := by decide

/-! ## Decoding: words written out from the patterns of R81 to R89, field by field from the high bit -/

theorem test_decode_feedBit : decode std ⟨.command, 0b00111111111111111111111111111111⟩ = .ok (.feedBit true) := by decide
/-- P4's first command word, 32'h5981001C. -/
theorem test_decode_feedWord : decode std ⟨.command, 0x5981001C⟩ = .ok (.feedWord 0x1981001C) := by decide
theorem test_decode_desync : decode std ⟨.command, 0x80000000⟩ = .ok .desync := by decide
theorem test_decode_reservedCmd : decode std ⟨.command, 0b11000000000000000000000000000001⟩ = .ok .reservedCmd := by decide
theorem test_decode_reset : decode std ⟨.rst, 1⟩ = .ok .reset := by decide
theorem test_decode_reset_low : decode std ⟨.rst, 0⟩ = .error .resetNotAsserted := by decide
/-- 01100110 tttttt ssssssssss pppppp. -/
theorem test_decode_msgType1 :
    decode std ⟨.dispatch, 0b01100110_000001_0101010101_010100⟩ = .ok (.msgType1 341 0b010100) := by decide
theorem test_decode_msgType9 :
    decode std ⟨.dispatch, 0b01100110_001001_0000000111_101111⟩ = .ok (.msgType9 7 0b101111) := by decide
theorem test_decode_msgRaw :
    decode std ⟨.dispatch, 0b01100110_111111_1111111111_000001⟩ = .ok (.msgRaw 63 1023 1) := by decide
theorem test_decode_msgUnknown :
    decode std ⟨.dispatch, 0b01100110_000000_0000000010_100000⟩ = .ok (.msgUnknown 0 2 0b100000) := by decide
theorem test_decode_dispatch_preamble :
    decode std ⟨.dispatch, 0b10011001_000001_0101010101_010100⟩ = .error .notHeaderWord1 := by decide
theorem test_decode_hw1 : decode std ⟨.hw1, 0b01100110_000110_0101010101_101111⟩ = .ok (.hw1 6 341 0b101111) := by decide
/-- zzzzzzzzzzzzz qqq nnnnn hhh pppppp. -/
theorem test_decode_hw2 :
    decode std ⟨.hw2, 0b0000001100101_001_00100_110_001100⟩ = .ok (.hw2 101 1 4 6 0b001100) := by decide
/-- f uu iiiii cccccccccccccccc pppppp. -/
theorem test_decode_c0 :
    decode std ⟨.c0, 0b0_01_00011_0000000000001010_011111⟩ = .ok (.c0 0 1 3 10 0b011111) := by decide
/-- rrrrrrrr oooooooo f uu iiiii pppppp. -/
theorem test_decode_c1 :
    decode std ⟨.c1, 0b11111101_01000010_1_10_10001_000100⟩ = .ok (.c1 0xFD 0x42 1 2 17 0b000100) := by decide
/-- cccccccccccccccc rrrrrrrr pppppp. -/
theorem test_decode_c2 :
    decode std ⟨.c2, 0b1111111110011100_00000101_010010⟩ = .ok (.c2 0xFF9C 5 0b010010) := by decide
/-- oooooooo f uu iiiii cccccccc pppppp. -/
theorem test_decode_c3 :
    decode std ⟨.c3, 0b10011001_1_10_00001_10000000_111101⟩ = .ok (.c3 0x99 1 2 1 0x80 0b111101) := by decide
/-- cccccccc rrrrrrrr oooooooo pppppp. -/
theorem test_decode_c4 :
    decode std ⟨.c4, 0b00000001_10000001_00000011_000010⟩ = .ok (.c4 1 0x81 3 2) := by decide
/-- P2's second record, 40'hD1FF9C0599. -/
theorem test_decode_satrec40 :
    decode std ⟨.satrec40, 0xD1FF9C0599⟩ = .ok (.satrec40 1 2 17 0xFF9C 5 0x99) := by decide
theorem test_decode_rawword : decode std ⟨.rawword, 0x19815554⟩ = .ok (.rawword 0x660555 0x14) := by decide
theorem test_decode_wordStep : decode std ⟨.wordStep, 0x19815554⟩ = .ok (.wordStep 0x19815554) := by decide
theorem test_decode_loss : decode std ⟨.loss, 0⟩ = .ok .loss := by decide
theorem test_decode_loss_bits : decode std ⟨.loss, 1⟩ = .error (.tooManyBits .loss) := by decide
theorem test_decode_acceptWord : decode std ⟨.acceptWord, 0x3FFFFFFF⟩ = .ok (.acceptWord 0x3FFFFFFF) := by decide
theorem test_decode_asmDiscard : decode std ⟨.asmDiscard, 0⟩ = .ok .asmDiscard := by decide
theorem test_decode_deinvert : decode std ⟨.deinvert, 0x667EAA82⟩ = .ok (.deinvert 0x667EAA82) := by decide
theorem test_decode_parity6 : decode std ⟨.parity6, 0x80000000⟩ = .ok (.parity6 0x80000000) := by decide
theorem test_decode_parityOk : decode std ⟨.parityOk, 0x19815554⟩ = .ok (.parityOk 0x19815554) := by decide
theorem test_decode_preambleOk : decode std ⟨.preambleOk, 0x19800000⟩ = .ok (.preambleOk 0x19800000) := by decide
/-- c29, c30, then the 24 data bits. -/
theorem test_decode_encodeWord :
    decode std ⟨.encodeWord, 0b10_011001100000010101010101⟩ = .ok (.encodeWord 0x660555 true false) := by decide
theorem test_decode_header :
    decode std ⟨.header, 0x19815554 * 2 ^ 30 + 0x00CA480C⟩ = .ok (.header 0x19815554 0x00CA480C) := by decide
theorem test_decode_satrec : decode std ⟨.satrec, 0x23000AFD42⟩ = .ok (.satrec 0x23000AFD42) := by decide
theorem test_decode_prcScale : decode std ⟨.prcScale, 1⟩ = .ok (.prcScale 1) := by decide
theorem test_decode_rrcScale : decode std ⟨.rrcScale, 0⟩ = .ok (.rrcScale 0) := by decide
/-- The four rows whose operand is a structure have no bits. -/
theorem test_encode_structures : encode std (.decode [] 0) = none ∧ encode std (.slots [] 0) = none ∧
    encode std (.extract 0 0 0) = none ∧ encode std (.render (.headerOnly ⟨0, 0, 0, 0, 0, 0, 0⟩)) = none :=
  ⟨rfl, rfl, rfl, rfl⟩

/-! ## The table's numerals and the adaptor -/

theorem test_table_feedWord : decodeTableWord 32 0x5981001C = some (.feedWord 0x1981001C) := by decide
theorem test_table_desync : decodeTableWord 32 0x80000000 = some .desync := by decide
theorem test_table_satrec40 : decodeTableWord 40 0x23000AFD42 = some (.satrec40 0 1 3 10 0xFD 0x42) := by decide
theorem test_placed_desync :
    (nextOf (step (State.reset.withFetchWord 32 0x80000000))).bind (fun t => t.out.map (·.result)) =
      some (.resyncing .external) := by decide
theorem test_idle_step : step State.reset = .next State.reset := rfl

/-! ## Commands -/

/-- V-S1. -/
theorem test_feedBit_shift : snap (.feedBit true) (atRest false 0 0x80000001 []) = some (false, 0, 3, 0) := by decide
/-- V-S2, the last bit: from the 28 bits before it, ACC = 32'h0CC32AB7. -/
theorem test_feedBit_lock : shown (.feedBit true) (atRest false 0 0x0CC32AB7 []) =
    some (.incomplete, .lockAcquired, some 0x1986556F) := by decide
/-- V-W1. -/
theorem test_feedWord_preamble : shown (.feedWord 0x12345678) State.reset =
    some (.resyncing .preamble, .syncLost, none) := by decide
/-- P4, the first command. -/
theorem test_feedWord_lock : snap (.feedWord 0x1981001C) State.reset = some (true, 0, 0, 1) := by decide
/-- R163. -/
theorem test_desync : snap .desync (atRest true 7 0xFFBFBFAF [0x19800000]) = some (false, 0, 0xFFBFBFAF, 0) := by decide
/-- R83. -/
theorem test_reservedCmd : shown .reservedCmd (atRest true 7 5 [0x19800000]) =
    some (.refused .badCommand, .none, none) := by decide
/-- R311. -/
theorem test_reset : snap .reset (atRest true 7 5 [0x19800000]) = some (false, 0, 0, 0) := by decide

/-! ## Internal operations on the Context -/

/-- P1, bit#66: header word 2 with frame length 0 completes the message. -/
theorem test_wordStep_complete : given (.wordStep 0x00C80030) (atRest true 0 0 [0x19865579]) =
    some (.stepped (.complete (.headerOnly ⟨6, 341, 100, 600, 0, 0, 0⟩)) .word) := by decide
/-- V-A4, the capacity guard. -/
theorem test_wordStep_guard : given (.wordStep 0x19800000) (at_ true 0 5 [0x19800000] 33) =
    some (.stepped (.error .frameLength) .syncLost) := by decide
/-- R160. -/
theorem test_loss : snap .loss (atRest true 29 0xA640003D [0x19815554]) = some (false, 0, 0xA640003D, 0) := by decide
/-- R182: one word more, no other field. -/
theorem test_acceptWord : snap (.acceptWord 0x00CA480C) (atRest true 0 7 [0x19815554]) = some (true, 0, 7, 2) := by decide
/-- V-A4 without WORD_STEP: LOCK is not written. -/
theorem test_acceptWord_guard : snap (.acceptWord 0) (at_ true 3 7 [] 33) = some (true, 3, 7, 0) := by decide
/-- R184. -/
theorem test_asmDiscard : (nextOf (exec .asmDiscard (atRest true 3 7 [0x19815554, 9]))).map (·.ctx) =
    some { Context.reset with lock := true, bitoff := 3, acc := 7 } := rfl

/-! ## The payload decoder -/

/-- P2's message, received parity and all. -/
def p2 : List Word := [0x19815554, 0x00CA480C, 0x08C0029F, 0x3F50B444, 0x3FE70152, 0x2640003D]

/-- P2's slots 0 and 1. -/
def p2Slots : List (Option Satellite) :=
  [some ⟨3, 1, 0, 66, 10, -3, 200, -6⟩, some ⟨17, 2, 1, 153, -100, 5, -32000, 160⟩] ++ List.replicate 16 none

theorem test_decode_op : given (.decode p2 6) State.reset =
    some (.result (.complete (.corrections ⟨1, 341, 101, 606, 1, 4, 0⟩ 2 p2Slots))) := by decide
/-- V-L4, R212. -/
theorem test_decode_op_long : given (.decode [] 34) State.reset = some (.result (.error .frameLength)) := by decide
theorem test_slots : given (.slots p2 4) State.reset = some (.slots p2Slots) := by decide
theorem test_msgType1 : given (.msgType1 341 0) (atRest true 0 0 p2) =
    some (.result (.complete (.corrections ⟨1, 341, 101, 606, 1, 4, 0⟩ 2 p2Slots))) := by decide
theorem test_msgType9 : given (.msgType9 7 0x2F) (atRest true 0 0 p2) =
    some (.result (.complete (.corrections ⟨9, 7, 101, 606, 1, 4, 0⟩ 2 p2Slots))) := by decide
/-- R226: `hw1(3, 2)` with zero parity is 30'h19830080. -/
theorem test_msgRaw : given (.msgRaw 3 2 0) (atRest true 0 0 p2) =
    some (.result (.complete (.raw ⟨3, 2, 101, 606, 1, 4, 0⟩ 3 6 (0x19830080 :: p2.tail)))) := by decide
theorem test_msgUnknown : given (.msgUnknown 0 2 0) (atRest true 0 0 p2) = some (.result (.error .unknownType)) := by
  decide
/-- P3's second record of M4: the ends of the ranges (R222, R223). -/
theorem test_satellite_range : satellite 0xFF80008000 = ⟨31, 3, 1, 0, 0x8000, 0x80, -10485760, -4096⟩ := by decide
/-- V-L1's data words. -/
theorem test_packSats : packSats [0x03000A0000, 0x8400000500] = [0x03000A, 0x000084, 0x000005, 0x000000] := by decide

/-! ## The word codec (V-C1, V-C2, V-C4, R121, R130) -/

theorem test_extract : given (.extract 0x19815554 16 6) State.reset = some (.bits 1) := by decide
theorem test_deinvert : given (.deinvert 0x667EAA82) State.reset = some (.word 0x19815542) := by decide
theorem test_parity6_c29 : given (.parity6 0x80000000) State.reset = some (.parity 0x29) := by decide
theorem test_parity6_c30 : given (.parity6 0x40000000) State.reset = some (.parity 0x15) := by decide
theorem test_parityOk : given (.parityOk 0x6679AAB9) State.reset = some (.flag true) := by decide
theorem test_parityOk_carry : given (.parityOk 0x267EAA82) State.reset = some (.flag false) := by decide
theorem test_preambleOk : given (.preambleOk 0x267EAA82) State.reset = some (.flag false) := by decide
theorem test_encodeWord : given (.encodeWord 0x123456 false true) State.reset = some (.word 0x3B72EA57) := by decide
theorem test_encodeWord_carries : given (.encodeWord 0x660555 true true) State.reset = some (.word 0x267EAAAB) := by decide
theorem test_header : given (.header 0x19815554 0x00CA480C) State.reset =
    some (.header ⟨0x66, 1, 341, 101, 1, 4, 0⟩) := by decide
theorem test_satrec : given (.satrec 0xD1FF9C0599) State.reset = some (.satellite ⟨1, 2, 17, -100, 5, 0x99⟩) := by decide
theorem test_prcScale : given (.prcScale 1) State.reset = some (.scale 320) := by decide
theorem test_rrcScale : given (.rrcScale 1) State.reset = some (.scale 32) := by decide

/-! ## Layouts (R86 to R90) and the dumper -/

theorem test_hw1 : given (.hw1 6 341 0x2F) State.reset = some (.hw1 ⟨0x66, 6, 341, 0x2F⟩) := by decide
theorem test_hw2 : given (.hw2 101 1 4 6 0x0C) State.reset = some (.hw2 ⟨101, 1, 4, 6, 0x0C⟩) := by decide
theorem test_c0 : given (.c0 0 1 3 0xFFFF 0) State.reset = some (.c0 ⟨0, 1, 3, -1, 0⟩) := by decide
theorem test_c1 : given (.c1 0xFD 0x42 1 2 17 4) State.reset = some (.c1 ⟨-3, 0x42, 1, 2, 17, 4⟩) := by decide
theorem test_c2 : given (.c2 0xFF9C 0x80 1) State.reset = some (.c2 ⟨-100, -128, 1⟩) := by decide
theorem test_c3 : given (.c3 0x99 1 2 1 0x80 2) State.reset = some (.c3 ⟨0x99, 1, 2, 1, 0x80, 2⟩) := by decide
theorem test_c4 : given (.c4 0x80 0x81 0xFF 3) State.reset = some (.c4 ⟨0x80, -127, 0xFF, 3⟩) := by decide
theorem test_satrec40 : given (.satrec40 0 1 3 10 0xFD 0x42) State.reset =
    some (.satellite ⟨0, 1, 3, 10, -3, 0x42⟩) := by decide
theorem test_rawword : given (.rawword 0x660555 0x14) State.reset = some (.rawWord 0x660555 0x14) := by decide
theorem test_render (r : Record) : given (.render r) State.reset = some (.text (Config.renderText r)) := rfl
/-- R224. -/
theorem test_slotOnBus_absent : slotOnBus none = (false, ⟨0, 0, 0, 0, 0, 0, 0, 0⟩) := by decide

/-! ## Witnesses: a state and operands that meet all the hypotheses of each statement that has any -/

/-- The last bit of a lock point: unlocked, ACC one bit short of 32'h19815554 (V-C1). -/
def beforeLock : State := atRest false 0 0x0CC0AAAA []

/-- P1's end, one bit before bit#66: locked, header word 1 stored, BITOFF 29, ACC one bit short of 32'h7F37FFF0. -/
def beforeHeader2 : State := atRest true 29 0x3F9BFFF8 [0x19865579]

/-- A raw message of 33 words with its last word still to come. -/
def beforeLast : State := at_ true 0 0 [0x19830000, 0x00003E00] 32

/-- Header word 1 and header word 2 of a type 9 message with frame length 31, and 31 zero words. -/
def longType9 : List Word := [0x19890000, 0x00003E00] ++ List.replicate 31 0

theorem inv_reset : State.reset.ctx.Inv State.reset.cfg :=
  ⟨by decide, by decide, by decide, by decide, by decide, by decide⟩

theorem inv_beforeLock : beforeLock.Inv := ⟨rfl, by decide, by decide, by decide, by decide, by decide, by decide⟩

theorem inv_beforeHeader2 : beforeHeader2.Inv :=
  ⟨rfl, by decide, by decide, by decide, by decide, by decide, by decide⟩

theorem inv_beforeLast : beforeLast.Inv := ⟨rfl, by decide, by decide, by decide, by decide, by decide, by decide⟩

/-- Each clause: FEED_BIT answers; ACC values that differ in bit 31 alone have the same shifted value; LOSS answers; RESET answers. -/
theorem witness_AccWrittenByFeedBitAndResetOnly :
    (∃ t, exec (.feedBit true) State.reset = .next t) ∧
    ((2 * (0x80000000#32).toNat + true.toNat) % 2 ^ 32 = (2 * State.reset.ctx.acc.toNat + true.toNat) % 2 ^ 32) ∧
    ((∀ b, Instr.loss ≠ .feedBit b) ∧ Instr.loss ≠ .reset ∧ ∃ t, exec .loss State.reset = .next t) ∧
    ((∀ b, Instr.reset ≠ .feedBit b) ∧ ∃ t, exec .reset State.reset = .next t) :=
  ⟨⟨_, rfl⟩, by decide, ⟨fun _ h => (nomatch h), fun h => (nomatch h), _, rfl⟩, fun _ h => (nomatch h), _, rfl⟩

theorem witness_FeedBitWithoutLockPointOnlyShifts : State.reset.ctx.lock = false ∧
    ¬ (preambleOk State.reset.cfg (deinvert (State.reset.ctx.shiftIn true).acc) = true ∧
      parityOk (State.reset.ctx.shiftIn true).acc = true) := by decide

theorem witness_FeedBitAcquiresLock : beforeLock.ctx.lock = false ∧ beforeLock.ctx.wcount = 0 ∧
    preambleOk beforeLock.cfg (deinvert (beforeLock.ctx.shiftIn false).acc) = true ∧
    parityOk (beforeLock.ctx.shiftIn false).acc = true := by decide

theorem witness_FeedBitHandsItsWordToWordStep :
    (beforeLock.ctx.lock = false ∧ preambleOk beforeLock.cfg (deinvert (beforeLock.ctx.shiftIn false).acc) = true ∧
      parityOk (beforeLock.ctx.shiftIn false).acc = true) ∧
    beforeHeader2.ctx.lock = true ∧ beforeHeader2.ctx.bitoff = 29 ∧
    parityOk (beforeHeader2.ctx.shiftIn false).acc = true := by decide

theorem witness_FeedBitInsideWordOnlyCounts : ∀ k ∈ [0, 28, 30, 31],
    (at_ true (BitVec.ofNat 5 k) 0 [] 0).ctx.lock = true ∧ (at_ true (BitVec.ofNat 5 k) 0 [] 0).ctx.bitoff.toNat ≠ 29 := by
  decide

theorem witness_FeedBitParityFailureLosesLock : beforeHeader2.ctx.lock = true ∧ beforeHeader2.ctx.bitoff = 29 ∧
    parityOk (beforeHeader2.ctx.shiftIn true).acc = false := by decide

theorem witness_FeedBitLocksOnlyAtLockPoint :
    beforeLock.ctx.lock = false ∧ ∃ t, exec (.feedBit false) beforeLock = .next t ∧ t.ctx.lock = true :=
  ⟨rfl, _, rfl, by decide⟩

/-- The candidate differs from 32'h19815554 in bit 0, in bit 29. -/
theorem witness_SingleBitErrorLosesLock :
    ((at_ true 29 0x0CC0AAAA [] 0).ctx.lock = true ∧ (at_ true 29 0x0CC0AAAA [] 0).ctx.bitoff = 29 ∧ 0 < 30 ∧
      parityOk (((at_ true 29 0x0CC0AAAA [] 0).ctx.shiftIn true).acc ^^^ ((1 : BitVec 32) <<< 0)) = true) ∧
    (at_ true 29 0x1CC0AAAA [] 0).ctx.lock = true ∧ (at_ true 29 0x1CC0AAAA [] 0).ctx.bitoff = 29 ∧ 29 < 30 ∧
      parityOk (((at_ true 29 0x1CC0AAAA [] 0).ctx.shiftIn false).acc ^^^ ((1 : BitVec 32) <<< 29)) = true := by decide

theorem witness_FeedWordOffBoundaryIsRefused :
    (at_ true 1 0 [] 0).ctx.bitoff ≠ 0 ∧ (at_ true 31 0 [] 0).ctx.bitoff ≠ 0 := by decide

theorem witness_FeedWordOnBoundaryRunsWordStep :
    State.reset.ctx.bitoff = 0 ∧ ∃ t, exec (.feedWord 0x19800000) State.reset = .next t := ⟨rfl, _, rfl⟩

theorem witness_FeedWordWhileUnlockedEntersLockOnPreamble : State.reset.ctx.Inv State.reset.cfg ∧
    State.reset.ctx.lock = false ∧ preambleOk State.reset.cfg 0x19800000 = true ∧
    preambleOk State.reset.cfg 0x12345678 = false := ⟨inv_reset, by decide, by decide, by decide⟩

theorem witness_DesyncExecutesLoss : beforeLock.ctx.Inv beforeLock.cfg ∧ beforeLock.ctx.lock = false :=
  ⟨inv_beforeLock.ctx_inv, rfl⟩

theorem witness_LossLeavesResetExceptAcc : beforeLock.ctx.Inv beforeLock.cfg ∧ beforeLock.ctx.lock = false :=
  ⟨inv_beforeLock.ctx_inv, rfl⟩

/-- The guard at 33 and 63; completion at WCOUNT 1 and 32; one more word at WCOUNT 0, 1 and 32. -/
theorem witness_AcceptWordCases :
    (33 ≤ (at_ true 0 0 [] 33).ctx.wcount.toNat ∧ 33 ≤ (at_ true 0 0 [] 63).ctx.wcount.toNat) ∧
    (beforeHeader2.ctx.wcount.toNat < 33 ∧ completesMessage beforeHeader2.ctx 0) ∧
    (beforeLast.ctx.wcount.toNat = 32 ∧ completesMessage beforeLast.ctx 0) ∧
    (State.reset.ctx.wcount.toNat < 33 ∧ ¬ completesMessage State.reset.ctx 0) ∧
    (beforeHeader2.ctx.wcount.toNat < 33 ∧ ¬ completesMessage beforeHeader2.ctx 0x200) ∧
    (at_ true 0 0 [] 32).ctx.wcount.toNat < 33 ∧ ¬ completesMessage (at_ true 0 0 [] 32).ctx 0 := by
  unfold completesMessage; decide

theorem witness_WordStepCases :
    (State.reset.ctx.wcount = 0 ∧ preambleOk State.reset.cfg 0x12345678 = false) ∧
    (33 ≤ (at_ true 0 0 [] 33).ctx.wcount.toNat ∧ 33 ≤ (at_ true 0 0 [] 63).ctx.wcount.toNat) ∧
    ((beforeLast.ctx.wcount = 0 → preambleOk beforeLast.cfg 0 = true) ∧ beforeLast.ctx.wcount.toNat < 33 ∧
      completesMessage beforeLast.ctx 0) ∧
    (State.reset.ctx.wcount = 0 → preambleOk State.reset.cfg 0x19800000 = true) ∧ State.reset.ctx.wcount.toNat < 33 ∧
      ¬ completesMessage State.reset.ctx 0x19800000 := by
  unfold completesMessage; decide

/-- The lengths 1, 34 and one that the header does not give; the four outcomes at the shortest and the longest length. -/
theorem witness_DecodeCases :
    (∀ x ∈ [([0x19810000, 0], 1), ([0x19810000, 0], 34), (longType9, 32)],
      ¬ (2 ≤ (BitVec.ofNat 6 x.2).toNat ∧ (BitVec.ofNat 6 x.2).toNat ≤ 33 ∧ (BitVec.ofNat 6 x.2).toNat = 2 +
        (headerOfWords (wordAt x.1 0) (wordAt x.1 1)).frmlen.toNat)) ∧
    (∀ x ∈ [([0x19800000, 0], 2, false, 0), ([0x19860000, 0], 2, true, 0), ([0x19810000, 0x200, 0], 3, true, 1),
        (longType9, 33, true, 31), (0x19BF0000 :: longType9.tail, 33, true, 31)],
      (2 ≤ (BitVec.ofNat 6 x.2.1).toNat ∧ (BitVec.ofNat 6 x.2.1).toNat ≤ 33 ∧ (BitVec.ofNat 6 x.2.1).toNat = 2 +
        (headerOfWords (wordAt x.1 0) (wordAt x.1 1)).frmlen.toNat) ∧
      std.legalType (headerOfWords (wordAt x.1 0) (wordAt x.1 1)).msgtype = x.2.2.1 ∧
      (headerOfWords (wordAt x.1 0) (wordAt x.1 1)).frmlen.toNat = x.2.2.2) := by decide

theorem witness_DecodeReadsOnlyItsWords :
    (∀ i, i < 2 → ([1, 2, 3] : List Word)[i]? = ([1, 2, 4] : List Word)[i]?) ∧ ([1, 2, 3] : List Word) ≠ [1, 2, 4] := by
  decide

theorem witness_DispatchRows : State.reset.cfg.legalType 1 = true ∧ State.reset.cfg.legalType 9 = true ∧
    (∀ t ∈ [2, 8, 10, 63], State.reset.cfg.legalType (BitVec.ofNat 6 t) = true) ∧
    State.reset.cfg.legalType 0 = false := by decide

theorem witness_DispatchRowIsWhatDecodeAnswers :
    decodeDispatch State.reset.cfg 0x19815554 = .ok (.msgType1 341 0x14) ∧
    decodeDispatch State.reset.cfg 0x19800000 = .ok (.msgUnknown 0 0 0) := by decide

/-- Present and absent at the value of `r` where the table changes, for each position. -/
theorem witness_SlotsPresence : ∀ x ∈ [(2, 0, 0, true), (1, 0, 0, false), (4, 0, 1, true), (3, 0, 1, false), (5, 0, 2, true),
      (4, 0, 2, false), (31, 5, 2, true), (29, 5, 2, false), (0, 5, 2, false)],
    x.2.1 < 6 ∧ x.2.2.1 < 3 ∧ (decide ((x.2.2.1 = 0 ∧ ((x.1 : Nat) : Int) - 5 * (x.2.1 : Nat) ≥ 2) ∨
      (x.2.2.1 = 1 ∧ ((x.1 : Nat) : Int) - 5 * (x.2.1 : Nat) ≥ 4) ∨
      (x.2.2.1 = 2 ∧ ((x.1 : Nat) : Int) - 5 * (x.2.1 : Nat) ≥ 5))) = x.2.2.2 := by decide

theorem witness_PresentSlotsArePrefix : (0 < 18 ∧ 0 < (countPresent (slots p2 4)).toNat) ∧
    17 < 18 ∧ ¬ 17 < (countPresent (slots p2 4)).toNat := by decide

/-- The clump of a message of exactly 7 words. -/
theorem witness_ClumpWordsHoldThreeRecords :
    let buf := [0x19890000, 0x00000A00, c0Word 1 2 3 4 5, c1Word 1 2 1 2 3 4, c2Word 1 2 3, c3Word 1 1 2 3 4 5, c4Word 1 2 3 4]
    6 + 5 * 0 < 7 ∧ wordAt buf (2 + 5 * 0) = c0Word 1 2 3 4 5 ∧ wordAt buf (3 + 5 * 0) = c1Word 1 2 1 2 3 4 ∧
      wordAt buf (4 + 5 * 0) = c2Word 1 2 3 ∧ wordAt buf (5 + 5 * 0) = c3Word 1 1 2 3 4 5 ∧
      wordAt buf (6 + 5 * 0) = c4Word 1 2 3 4 := by decide

theorem witness_PackedSatellitesRoundTrip : State.reset.cfg.legalType 1 = true ∧ State.reset.cfg.legalType 9 = true ∧
    ∀ n ∈ [1, 18], 1 ≤ (List.replicate n (0xD1FF9C0599 : SatBits)).length ∧
      (List.replicate n (0xD1FF9C0599 : SatBits)).length ≤ 18 := by decide

theorem witness_DeinvertUndoesTheInversion : 5 < 6 ∧ 6 ≤ 6 ∧ 6 < 30 ∧ 6 ≤ 29 ∧ 29 < 30 := by decide

theorem witness_OneOrTwoBitErrorsAreDetected : parityOk 0x19815554 = true ∧ 31 < 32 ∧ 0 < 29 ∧ 29 < 30 ∧ 6 ≤ 6 ∧
    parity6 ((1 : BitVec 32) <<< 29) = parity6 ((1 : BitVec 32) <<< 29) := by decide

theorem witness_EncodedWordIsReceivedAsItsData :
    parityOk (BitVec.ofBool false ++ BitVec.ofBool true ++ (0x267EAA82 : Word)) = true ∧
    (deinvert (BitVec.ofBool false ++ BitVec.ofBool true ++ (0x267EAA82 : Word))).extractLsb' 6 24 = 0x660555#24 := by
  decide

theorem witness_DecodeOfEncodeIsIdentity : (Instr.msgRaw 63 1023 63).wellFormed std = true ∧
    encode std (.msgRaw 63 1023 63) = some ⟨.dispatch, 0x19BFFFFF⟩ := by decide

/-- A reset cycle, a command cycle, an idle cycle, no cycle, and a row on the bench. -/
theorem witness_StepRunsTheDecodedInstruction :
    let y : Cycle := { rst := true, cmdValid := true, op := 2, din := 0 }
    ({ State.reset with input := [y] } : State).bench = none ∧ y.rst = true ∧
    ({ y with rst := false } : Cycle).rst = false ∧ ({ y with rst := false } : Cycle).cmdValid = true ∧
    ({ y with rst := false, cmdValid := false } : Cycle).cmdValid = false ∧ State.reset.bench = none ∧
    State.reset.input = [] ∧ decode State.reset.cfg ⟨.loss, 0⟩ = .ok .loss ∧ Instr.loss.wellFormed State.reset.cfg = true := by
  decide

theorem witness_PlacedRowIsWhatTheNextStepRuns :
    (tableCoded 32 0x5981001C = some ⟨.command, 0x5981001C⟩ ∧
      decode State.reset.cfg ⟨.command, 0x5981001C⟩ = .ok (.feedWord 0x1981001C)) ∧
    tableCoded 40 0x23000AFD42 = some ⟨.satrec40, 0x23000AFD42⟩ ∧
    decode State.reset.cfg ⟨.satrec40, 0x23000AFD42⟩ = .ok (.satrec40 0 1 3 10 0xFD 0x42) := by decide

theorem witness_PortsNeverStopTheBlock : State.reset.bench = none := rfl

theorem witness_ParametersAndInputAreNeverWritten : ∃ t, exec .desync beforeLast = .next t := ⟨_, rfl⟩

theorem witness_PureOperationsLeaveTheContext :
    isPure (.deinvert 0x667EAA82) = true ∧ ∃ t, exec (.deinvert 0x667EAA82) beforeLast = .next t := ⟨rfl, _, rfl⟩

theorem witness_CommandOutputs : isCommand (.feedBit false) = true ∧ (∃ t, exec (.feedBit false) beforeLock = .next t) ∧
    (shown (.feedBit false) beforeLock).map (·.2.2) = some (some 0x19815554) ∧
    isCommand (.feedWord 0x19800000) = true ∧ (∃ t, exec (.feedWord 0x19800000) State.reset = .next t) ∧
    (shown (.feedWord 0x19800000) State.reset).map (·.2.2) = some (some 0x19800000) :=
  ⟨rfl, ⟨_, rfl⟩, by decide, rfl, ⟨_, rfl⟩, by decide⟩

/-- Each of the four events. -/
theorem witness_EventsAndResultsAgree :
    (beforeLock.ctx.Inv beforeLock.cfg ∧ (shown (.feedBit false) beforeLock).map (·.2.1) = some .lockAcquired) ∧
    (beforeLock.ctx.Inv beforeLock.cfg ∧ (shown (.feedBit true) beforeLock).map (·.2.1) = some .none) ∧
    (beforeHeader2.ctx.Inv beforeHeader2.cfg ∧ (shown (.feedBit false) beforeHeader2).map (·.2.1) = some .word) ∧
    (beforeHeader2.ctx.Inv beforeHeader2.cfg ∧ (shown (.feedBit true) beforeHeader2).map (·.2.1) = some .syncLost) :=
  ⟨⟨inv_beforeLock.ctx_inv, by decide⟩, ⟨inv_beforeLock.ctx_inv, by decide⟩, ⟨inv_beforeHeader2.ctx_inv, by decide⟩,
    inv_beforeHeader2.ctx_inv, by decide⟩

/-- `s` with one port cycle presented. -/
def presenting (s : State) (y : Cycle) : State := { s with input := [y] }

theorem witness_EveryStepKeepsTheInvariants :
    (presenting beforeHeader2 (feedBitCycle true)).Inv ∧
    ∃ t, step (presenting beforeHeader2 (feedBitCycle true)) = .next t :=
  ⟨⟨rfl, inv_beforeHeader2.ctx_inv⟩, _, rfl⟩

theorem witness_CapacityGuardNeverFires : (presenting beforeLast (feedWordCycle 0)).Inv ∧
    ∃ t o, step (presenting beforeLast (feedWordCycle 0)) = .next t ∧ t.out = some o :=
  ⟨⟨rfl, inv_beforeLast.ctx_inv⟩, _, _, rfl, rfl⟩

/-- A type 0 message with frame length 31 and its last word still to come (R227: UNKNOWN_TYPE at completion). -/
def beforeLastUnknown : State := at_ true 0 0 [0x19800000, 0x00003E00] 32

theorem inv_beforeLastUnknown : beforeLastUnknown.Inv :=
  ⟨rfl, by decide, by decide, by decide, by decide, by decide, by decide⟩

/-- P1, bit#66, completes with a record at WCOUNT 1; a type 0 message ends in UNKNOWN_TYPE at WCOUNT 32. -/
theorem witness_CompletionNeedsEveryWordAndKeepsLock :
    ((presenting beforeHeader2 (feedBitCycle false)).Inv ∧
      ∃ t o r, step (presenting beforeHeader2 (feedBitCycle false)) = .next t ∧ t.out = some o ∧ o.result = .complete r) ∧
    (presenting beforeLastUnknown (feedWordCycle 0)).Inv ∧
      ∃ t o, step (presenting beforeLastUnknown (feedWordCycle 0)) = .next t ∧ t.out = some o ∧
        o.result = .error .unknownType :=
  ⟨⟨⟨rfl, inv_beforeHeader2.ctx_inv⟩, _, _, .headerOnly ⟨6, 341, 100, 600, 0, 0, 0⟩, rfl, rfl, by decide⟩,
    ⟨rfl, inv_beforeLastUnknown.ctx_inv⟩, _, _, rfl, rfl, by decide⟩

theorem witness_ThirtyBitsAreOneWord :
    let s : State := { atRest true 0 0x6679AAB9 [0x19865579] with input := (bitsOfWord 0x3F37FFF0).map feedBitCycle ++ [] }
    s.bench = none ∧ s.ctx.lock = true ∧ s.ctx.bitoff = 0 ∧ (0 < 1 ∧ 1 < 30) ∧ (0 < 29 ∧ 29 < 30) ∧
    parityOk (s.ctx.acc.extractLsb' 0 2 ++ (0x3F37FFF0 : Word)) = true ∧
    parityOk (s.ctx.acc.extractLsb' 0 2 ++ (0x3F37FFF1 : Word)) = false := by decide

theorem witness_WholeMessageCompletesOnce :
    let s : State := { atRest true 0 0 [] with input := (0x19830000 :: 0x00000200 :: [5]).map feedWordCycle ++ [] }
    s.Inv ∧ s.ctx.lock = true ∧ s.ctx.bitoff = 0 ∧ s.ctx.wcount = 0 ∧ preambleOk s.cfg 0x19830000 = true ∧
      ([5] : List Word).length = (frmlenOf 0x00000200).toNat ∧ 0 < 2 ∧ 2 < 2 + ([5] : List Word).length :=
  ⟨⟨rfl, by decide, by decide, by decide, by decide, by decide, by decide⟩, by decide, by decide, by decide, by decide,
    by decide, by decide, by decide⟩

theorem witness_ResetValues : 0 < 33 ∧ 32 < 33 := by decide

theorem witness_AsmDiscardEmptiesTheBuffer : 0 < 33 ∧ 32 < 33 ∧ (beforeHeader2.ctx.bufRead 0 = 0x19865579) := by decide

theorem witness_RomHoldsTheConstants : (⟨90, 32767, 90, 32767, .degrees⟩ : Config.RomEntry) ∈ Config.rom := by decide

end Sys2Proof.Tests
end

section
/-! Proofs of the statements about the state (`10_state.md`): the invariants at rest of R40, what touches ACC (R23), and what an
instruction neither writes nor reads (R30, R60, R312). First the facts about single instructions and about one step, then the
rules for the invariant, then the statements. -/

namespace Sys2Proof.Machine

/-! ## What one instruction does -/

/-- What a dispatch row delivers: of the Context it reads BUF only. -/
def dispatchValue (w : Config.Params → Word) (p : Config.Params) (buf : Vector Word 33) : Value :=
  .result (dispatchHeader1 p (w p) { Context.reset with buf := buf })

theorem dispatchValue_eq (w : Config.Params → Word) (s : State) :
    dispatchValue w s.cfg s.ctx.buf = .result (dispatchHeader1 s.cfg (w s.cfg) s.ctx) := rfl

/-- A pure row delivers a value that is a function of the parameters and BUF, and leaves the Context as it is (R229). -/
theorem exec_of_isPure (i : Instr) (h : isPure i = true) :
    ∃ f : Config.Params → Vector Word 33 → Value, ∀ s, exec i s = .next (s.deliver s.ctx (f s.cfg s.ctx.buf)) := by
  cases i with
  | feedBit | feedWord | desync | reservedCmd | reset | wordStep | loss | acceptWord | asmDiscard => cases h
  | msgType1 staid parity =>
    exact ⟨dispatchValue fun p => hw1Word p.preamble 1 staid parity, fun s => by rw [dispatchValue_eq]; rfl⟩
  | msgType9 staid parity =>
    exact ⟨dispatchValue fun p => hw1Word p.preamble 9 staid parity, fun s => by rw [dispatchValue_eq]; rfl⟩
  | msgRaw t staid parity | msgUnknown t staid parity =>
    exact ⟨dispatchValue fun p => hw1Word p.preamble t staid parity, fun s => by rw [dispatchValue_eq]; rfl⟩
  | hw1 t staid parity => exact ⟨fun p _ => .hw1 (viewHw1 (hw1Word p.preamble t staid parity)), fun _ => rfl⟩
  | decode buf n => exact ⟨fun p _ => .result (decodeMessage p buf n.toNat), fun _ => rfl⟩
  | preambleOk w => exact ⟨fun p _ => .flag (preambleOk p w), fun _ => rfl⟩
  | _ => exact ⟨fun _ _ => _, fun _ => rfl⟩

/-- FEED_WORD: refused off a boundary, else WORD_STEP on the word with the Context locked (R162). -/
theorem execFeedWord_cases (w : Word) (s : State) :
    (s.ctx.bitoff ≠ 0 ∧ execFeedWord w s = .next (s.reply s.ctx (.refused .notOnBoundary) .none none)) ∨
    (s.ctx.bitoff = 0 ∧
      execFeedWord w s = .next (s.replyStep w (wordStep s.cfg w { s.ctx with lock := true }))) := by
  by_cases h : s.ctx.bitoff = 0
  · exact .inr ⟨h, by simp only [execFeedWord, h, ne_eq, not_true_eq_false, if_false]⟩
  · exact .inl ⟨h, by simp only [execFeedWord, h, ne_eq, not_false_eq_true, if_true]⟩

/-- Every instruction, in every state, answers with a command's reply, a quiet cycle or a delivered value. -/
theorem exec_answers (i : Instr) (s : State) :
    (∃ c r e w, exec i s = .next (s.reply c r e w)) ∨ (∃ c, exec i s = .next (s.quiet c)) ∨
      ∃ c v, exec i s = .next (s.deliver c v) := by
  by_cases hp : isPure i = true
  · obtain ⟨f, hf⟩ := exec_of_isPure i hp
    exact .inr (.inr ⟨_, _, hf s⟩)
  · cases i with
    | feedBit b =>
      rcases execFeedBit_cases b s with ⟨_, _, h⟩ | ⟨_, _, h⟩ | ⟨_, _, h⟩ | ⟨_, _, _, h⟩ | ⟨_, _, _, h⟩ <;>
        exact .inl ⟨_, _, _, _, h⟩
    | feedWord w => rcases execFeedWord_cases w s with ⟨_, h⟩ | ⟨_, h⟩ <;> exact .inl ⟨_, _, _, _, h⟩
    | desync | reservedCmd => exact .inl ⟨_, _, _, _, rfl⟩
    | reset | loss | asmDiscard => exact .inr (.inl ⟨_, rfl⟩)
    | wordStep | acceptWord => exact .inr (.inr ⟨_, _, rfl⟩)
    | _ => exact absurd rfl hp

/-- What an instruction never writes: the parameters (R30, R312), and the model's own input and bench. -/
theorem exec_frame {i : Instr} {s t : State} (h : exec i s = .next t) :
    t.cfg = s.cfg ∧ t.input = s.input ∧ t.bench = s.bench := by
  rcases exec_answers i s with ⟨c, r, e, w, ha⟩ | ⟨c, ha⟩ | ⟨c, v, ha⟩ <;>
    (rw [ha] at h; cases h; exact ⟨rfl, rfl, rfl⟩)

/-- No meaning reads the outputs of the step before: `reply`, `quiet` and `deliver` overwrite both fields (R30, R60). -/
theorem exec_withOutputs (i : Instr) (s : State) (o : Option Outputs) (v : Option Value) :
    exec i { s with out := o, value := v } = exec i s := by
  by_cases hp : isPure i = true
  · obtain ⟨f, hf⟩ := exec_of_isPure i hp
    rw [hf, hf]; rfl
  · cases i with
    | feedBit | feedWord | desync | reservedCmd | reset | wordStep | loss | acceptWord | asmDiscard => rfl
    | _ => exact absurd rfl hp

/-! ## ACC -/

/-- `s` with ACC holding `a`. -/
def State.withAcc (s : State) (a : Candidate) : State := { s with ctx := { s.ctx with acc := a } }

theorem shiftIn_acc_toNat (c : Context) (b : Bool) :
    (c.shiftIn b).acc.toNat = (2 * c.acc.toNat + b.toNat) % 2 ^ 32 := by
  have hb : (BitVec.ofBool b).toNat = b.toNat := BitVec.toNat_ofBool b
  have hlt : b.toNat < 2 ^ 1 := Bool.toNat_lt b
  rw [Context.shiftIn, BitVec.toNat_append, hb, ← Nat.shiftLeft_add_eq_or_of_lt hlt, Nat.shiftLeft_eq, extract,
    BitVec.extractLsb'_toNat, Nat.shiftRight_zero]
  omega

/-- ACC values that agree below bit 31 shift to the same Context (R151). -/
theorem shiftIn_withAcc (c : Context) (b : Bool) (a : Candidate)
    (h : (2 * a.toNat + b.toNat) % 2 ^ 32 = (2 * c.acc.toNat + b.toNat) % 2 ^ 32) :
    ({ c with acc := a } : Context).shiftIn b = c.shiftIn b := by
  have hacc : (({ c with acc := a } : Context).shiftIn b).acc = (c.shiftIn b).acc :=
    BitVec.eq_of_toNat_eq (by rw [shiftIn_acc_toNat, shiftIn_acc_toNat]; exact h)
  exact congrArg (fun x => { c with acc := x }) hacc

/-- FEED_BIT leaves in ACC what R151 shifted there, in each of its five cases. -/
theorem execFeedBit_acc {b : Bool} {s t : State} (h : execFeedBit b s = .next t) : t.ctx.acc = (s.ctx.shiftIn b).acc := by
  rcases execFeedBit_cases b s with ⟨_, _, hx⟩ | ⟨_, _, hx⟩ | ⟨_, _, hx⟩ | ⟨_, _, _, hx⟩ | ⟨_, _, _, hx⟩ <;>
    (rw [hx] at h; cases h; simp)

/-- FEED_BIT reads ACC through the shifted Context only. -/
theorem execFeedBit_withAcc (b : Bool) (s : State) (a : Candidate)
    (h : ({ s.ctx with acc := a } : Context).shiftIn b = s.ctx.shiftIn b) :
    execFeedBit b (s.withAcc a) = execFeedBit b s := by
  have hc : (s.withAcc a).ctx.shiftIn b = s.ctx.shiftIn b := h
  unfold execFeedBit
  rw [hc]
  rfl

/-- FEED_WORD carries ACC along and does not read it (R23). -/
theorem execFeedWord_withAcc {w : Word} {s t : State} (a : Candidate) (h : execFeedWord w s = .next t) :
    execFeedWord w (s.withAcc a) = .next (t.withAcc a) := by
  rcases execFeedWord_cases w s with ⟨hb, hx⟩ | ⟨hb, hx⟩ <;>
    rcases execFeedWord_cases w (s.withAcc a) with ⟨hb', hx'⟩ | ⟨hb', hx'⟩
  · rw [hx] at h; cases h; exact hx'
  · exact absurd hb' hb
  · exact absurd hb hb'
  · rw [hx] at h; cases h
    have hw : wordStep (s.withAcc a).cfg w { (s.withAcc a).ctx with lock := true } = _ :=
      wordStep_withAcc s.cfg w { s.ctx with lock := true } a
    rw [hx', hw]
    rfl

/-- WORD_STEP executed on its own carries ACC along and does not read it (R23). -/
theorem execWordStep_withAcc {w : Word} {s t : State} (a : Candidate) (h : execWordStep w s = .next t) :
    execWordStep w (s.withAcc a) = .next (t.withAcc a) := by
  cases h
  have hw : wordStep (s.withAcc a).cfg w (s.withAcc a).ctx = _ := wordStep_withAcc s.cfg w s.ctx a
  unfold execWordStep
  rw [hw]
  rfl

/-- ACCEPT_WORD executed on its own carries ACC along and does not read it (R23). -/
theorem execAcceptWord_withAcc {w : Word} {s t : State} (a : Candidate) (h : execAcceptWord w s = .next t) :
    execAcceptWord w (s.withAcc a) = .next (t.withAcc a) := by
  cases h
  have hw : acceptWord (s.withAcc a).cfg w (s.withAcc a).ctx = _ := acceptWord_withAcc s.cfg w s.ctx a
  unfold execAcceptWord
  rw [hw]
  rfl

/-- Every instruction but FEED_BIT and RESET carries ACC along and does not read it (R23). -/
theorem exec_withAcc {i : Instr} {s t : State} (a : Candidate) (hbit : ∀ b, i ≠ .feedBit b) (hrst : i ≠ .reset)
    (h : exec i s = .next t) : exec i (s.withAcc a) = .next (t.withAcc a) := by
  by_cases hp : isPure i = true
  · obtain ⟨f, hf⟩ := exec_of_isPure i hp
    rw [hf] at h ⊢
    cases h
    rfl
  · cases i with
    | feedBit b => exact absurd rfl (hbit b)
    | reset => exact absurd rfl hrst
    | feedWord w => exact execFeedWord_withAcc a h
    | desync | reservedCmd | loss | asmDiscard => cases h; rfl
    | wordStep w => exact execWordStep_withAcc a h
    | acceptWord w => exact execAcceptWord_withAcc a h
    | _ => exact absurd rfl hp

/-! ## One step -/

theorem isCommand_decodeCommand (c : BitVec 32) : isCommand (decodeCommand c) = true := by
  unfold decodeCommand
  dsimp only
  split_ifs <;> rfl

/-- What a port cycle presents decodes, to RESET or to a command (R82, R310). -/
theorem decode_coded {y : Cycle} {c : Coded} (h : y.coded = some c) (p : Config.Params) :
    ∃ i, (i = .reset ∨ isCommand i = true) ∧ decode p c = .ok i := by
  unfold Cycle.coded at h
  split_ifs at h <;> cases h
  · exact ⟨.reset, .inl rfl, rfl⟩
  · exact ⟨_, .inr (isCommand_decodeCommand _), decode_command p _⟩

theorem fetch_of_bench_empty (s : State) (h : s.bench = none) :
    fetch s = (s.input.head?.bind Cycle.coded, { s with input := s.input.tail }) := by
  rw [fetch_ports s h]
  obtain ⟨_, _, input, _, _, _⟩ := s
  cases input <;> rfl

/-- What is fetched does not depend on the outputs of the step before. -/
theorem fetch_withOutputs (s : State) (o : Option Outputs) (v : Option Value) :
    fetch { s with out := o, value := v } = ((fetch s).1, { (fetch s).2 with out := o, value := v }) := by
  obtain ⟨_, _, input, bench, _, _⟩ := s
  cases bench with
  | some c => rfl
  | none => cases input <;> rfl

/-- With an empty bench a step is an idle cycle, or runs RESET or one of the four commands (R80, R310). -/
theorem step_cases (s : State) (h : s.bench = none) :
    step s = .next (State.quiet { s with input := s.input.tail } s.ctx) ∨
    ∃ i, (i = .reset ∨ isCommand i = true) ∧ step s = exec i { s with input := s.input.tail } := by
  unfold step
  rw [fetch_of_bench_empty s h]
  cases hc : s.input.head?.bind Cycle.coded with
  | none => exact .inl rfl
  | some c =>
    obtain ⟨y, _, hy⟩ := Option.bind_eq_some_iff.mp hc
    obtain ⟨i, hi, hd⟩ := decode_coded hy s.cfg
    exact .inr ⟨i, hi, by simp only [hd]⟩

/-! ## The invariants at rest -/

/-- An empty assembler meets the invariants, wherever the synchronizer stands (R40). -/
theorem inv_of_empty {p : Config.Params} {c : Context} (hw : c.wcount = 0) (hr : ∀ i, c.bufRead i = 0)
    (hb : c.bitoff.toNat ≤ 29) (hl : c.lock = false → c.bitoff = 0) : c.Inv p where
  unlocked_is_empty := fun h => ⟨hl h, hw, fun i _ => hr i⟩
  bitoff_range := hb
  wcount_range := by simp [hw]
  incomplete := by simp [hw]
  empty_above := fun i _ _ => hr i
  header_has_preamble := by simp [hw]

theorem inv_reset (p : Config.Params) : Context.reset.Inv p :=
  inv_of_empty rfl (bufRead_asmDiscard Context.reset) (by decide) fun _ => rfl

theorem inv_loss (p : Config.Params) (c : Context) : c.loss.Inv p :=
  inv_of_empty rfl (bufRead_loss c) (by simp) fun _ => rfl

section Context
variable {p : Config.Params} {c d : Context}

/-- I-a to I-e do not mention ACC. -/
theorem Context.Inv.shiftIn (h : c.Inv p) (b : Bool) : (c.shiftIn b).Inv p :=
  ⟨h.unlocked_is_empty, h.bitoff_range, h.wcount_range, h.incomplete, h.empty_above, h.header_has_preamble⟩

/-- In a locked Context the invariants ask of BITOFF its range only, and the rest is about the assembler. -/
theorem Context.Inv.of_locked (h : c.Inv p) (hl : d.lock = true) (hb : d.bitoff.toNat ≤ 29) (hbuf : d.buf = c.buf)
    (hw : d.wcount = c.wcount) : d.Inv p := by
  have hr : ∀ i, d.bufRead i = c.bufRead i := fun i => by simp only [Context.bufRead, hbuf]
  refine ⟨fun h0 => absurd (hl.symm.trans h0) (by decide), hb, ?_, ?_, ?_, ?_⟩ <;> simp only [hw, hr]
  · exact h.wcount_range
  · exact h.incomplete
  · exact h.empty_above
  · exact h.header_has_preamble

/-- Completing a message, or discarding one, empties the assembler and leaves the synchronizer as it is. -/
theorem Context.Inv.asmDiscard (h : c.Inv p) : c.asmDiscard.Inv p :=
  inv_of_empty rfl (bufRead_asmDiscard c) h.bitoff_range fun hl => (h.unlocked_is_empty hl).1

/-- Header word 2 after an append is the word itself, where it was the second one. -/
theorem bufRead_one_append (w : Word) (hn : c.wcount.toNat < 33) (h1 : c.wcount.toNat ≠ 1) :
    (c.append w).bufRead 1 = c.bufRead 1 := by
  rw [bufRead_append c w 1 hn, if_neg (Ne.symm h1)]

/-- A word that does not complete the message leaves it incomplete: the count is still below the length (R185). -/
theorem append_incomplete (h : c.Inv p) (w : Word) (hm : (c.append w).messageComplete = false)
    (h2 : 2 ≤ (c.append w).wcount.toNat) :
    (c.append w).wcount.toNat < 2 + (frmlenOf ((c.append w).bufRead 1)).toNat := by
  have hn : c.wcount.toNat < 33 := by have := h.wcount_range; omega
  have hcount := append_wcount_toNat c w hn
  have hne : (c.append w).wcount.toNat ≠ 2 + (frmlenOf ((c.append w).bufRead 1)).toNat := fun he =>
    Bool.false_ne_true (hm.symm.trans ((messageComplete_iff _).mpr ⟨h2, he⟩))
  by_cases h1 : c.wcount.toNat = 1
  · omega
  · have hlt := h.incomplete (by omega)
    rw [bufRead_one_append w hn h1] at hne ⊢
    omega

/-- Appending a word, header word 1 having its preamble, keeps the invariants while the message stays incomplete. -/
theorem Context.Inv.append (h : c.Inv p) (hl : c.lock = true) (w : Word) (hp : c.wcount = 0 → preambleOk p w = true)
    (hm : (c.append w).messageComplete = false) : (c.append w).Inv p := by
  have hn : c.wcount.toNat < 33 := by have := h.wcount_range; omega
  have hcount := append_wcount_toNat c w hn
  have hinc := append_incomplete h w hm
  refine ⟨fun h0 => absurd (hl.symm.trans h0) (by decide), h.bitoff_range, ?_, hinc, fun i hi hi33 => ?_, fun _ => ?_⟩
  · have hf : (frmlenOf ((c.append w).bufRead 1)).toNat < 32 := (frmlenOf _).isLt
    omega
  · rw [bufRead_append c w i hn, if_neg (by omega)]
    exact h.empty_above i (by omega) hi33
  · rw [bufRead_append c w 0 hn]
    split
    · exact hp (BitVec.eq_of_toNat_eq (Eq.symm ‹0 = c.wcount.toNat›))
    · exact h.header_has_preamble (by omega)

/-- WORD_STEP keeps the invariants of a locked Context, in each of its four cases (R158). -/
theorem Context.Inv.wordStep (h : c.Inv p) (hl : c.lock = true) (w : Word) : (wordStep p w c).1.Inv p := by
  rcases wordStep_cases p w c with ⟨_, _, hx⟩ | ⟨_, hx⟩ | ⟨_, _, _, hx⟩ | ⟨hp, _, hm, hx⟩ <;> rw [hx]
  · exact inv_loss p c
  · exact inv_loss p c
  · exact h.asmDiscard
  · exact h.append hl w hp hm

end Context

/-- FEED_BIT keeps the invariants, in each of its five cases (R150). -/
theorem execFeedBit_inv {b : Bool} {s t : State} (h : s.ctx.Inv s.cfg) (hx : execFeedBit b s = .next t) :
    t.ctx.Inv s.cfg := by
  have hs := h.shiftIn b
  rcases execFeedBit_cases b s with ⟨_, _, he⟩ | ⟨_, _, he⟩ | ⟨hl, hb, he⟩ | ⟨_, _, _, he⟩ | ⟨hl, _, _, he⟩ <;>
    (rw [he] at hx; cases hx)
  · exact Context.Inv.wordStep (c := { s.ctx.shiftIn b with lock := true, bitoff := 0 })
      (hs.of_locked rfl (Nat.zero_le _) rfl rfl) rfl _
  · exact hs
  · refine hs.of_locked hl ?_ rfl rfl
    have hr := h.bitoff_range
    change (s.ctx.bitoff + 1).toNat ≤ 29
    bv_omega
  · exact inv_loss _ _
  · exact Context.Inv.wordStep (c := { s.ctx.shiftIn b with bitoff := 0 })
      (hs.of_locked hl (Nat.zero_le _) rfl rfl) hl _

/-- FEED_WORD keeps the invariants (R162). -/
theorem execFeedWord_inv {w : Word} {s t : State} (h : s.ctx.Inv s.cfg) (hx : execFeedWord w s = .next t) :
    t.ctx.Inv s.cfg := by
  rcases execFeedWord_cases w s with ⟨_, he⟩ | ⟨_, he⟩ <;> (rw [he] at hx; cases hx)
  · exact h
  · exact Context.Inv.wordStep (c := { s.ctx with lock := true }) (h.of_locked rfl h.bitoff_range rfl rfl) rfl w

/-- RESET and the four commands keep the invariants. -/
theorem exec_inv {i : Instr} {s t : State} (hi : i = .reset ∨ isCommand i = true) (h : s.ctx.Inv s.cfg)
    (hx : exec i s = .next t) : t.ctx.Inv s.cfg := by
  rcases hi with rfl | hi
  · cases hx; exact inv_reset s.cfg
  · cases i with
    | feedBit b => exact execFeedBit_inv h hx
    | feedWord w => exact execFeedWord_inv h hx
    | desync => cases hx; exact inv_loss s.cfg s.ctx
    | reservedCmd => cases hx; exact h
    | _ => cases hi

/-! ## The statements -/

/-- Settles O56: an idle cycle keeps the Context, and RESET and the commands keep the invariants one by one. -/
theorem everyStepKeepsTheInvariants : Obligations.EveryStepKeepsTheInvariants := by
  intro s t hs hstep
  rcases step_cases s hs.bench_empty with he | ⟨i, hi, he⟩ <;> rw [he] at hstep
  · cases hstep
    exact ⟨hs.bench_empty, hs.ctx_inv⟩
  · obtain ⟨hcfg, _, hbench⟩ := exec_frame hstep
    have hinv := exec_inv (s := { s with input := s.input.tail }) hi hs.ctx_inv hstep
    exact ⟨hbench.trans hs.bench_empty, hcfg ▸ hinv⟩

/-- Settles O1. That ACC is not written follows from its not being read: with ACC as it is, the answer is the same. -/
theorem accWrittenByFeedBitAndResetOnly : Obligations.AccWrittenByFeedBitAndResetOnly := by
  refine ⟨fun b s t h => ?_, fun b s a h => ?_, fun s => ⟨_, rfl, rfl⟩, fun i s t hbit hrst h => ?_,
    fun i s t a hbit h => ?_⟩
  · rw [execFeedBit_acc h, shiftIn_acc_toNat]
  · exact execFeedBit_withAcc b s a (shiftIn_withAcc s.ctx b a h)
  · have hsame : Host.Outcome.next t = .next (t.withAcc s.ctx.acc) := h.symm.trans (exec_withAcc s.ctx.acc hbit hrst h)
    exact congrArg (fun u => u.ctx.acc) (Host.Outcome.next.inj hsame)
  · by_cases hrst : i = .reset
    · subst hrst; cases h; rfl
    · rw [if_neg hrst]; exact exec_withAcc a hbit hrst h

/-- Settles O50. -/
theorem parametersAndInputAreNeverWritten : Obligations.ParametersAndInputAreNeverWritten :=
  fun _ _ _ => exec_frame

/-- Settles O54: what is fetched does not depend on the outputs, and then no meaning reads them. -/
theorem outputsAreNotState : Obligations.OutputsAreNotState := by
  intro s o v
  unfold step
  rw [fetch_withOutputs]
  obtain ⟨oc, s'⟩ := fetch s
  cases oc with
  | none => rfl
  | some c =>
    cases hd : decode s'.cfg c with
    | error e => simp only [hd]
    | ok i => simp only [hd]; exact exec_withOutputs i s' o v

/-- Settles O55. -/
theorem resetMeetsTheInvariants : Obligations.ResetMeetsTheInvariants :=
  fun p _ => ⟨rfl, inv_reset p⟩

end Sys2Proof.Machine
end

section
/-! Proofs of the statements about the order of bits and words and about purity (`20_memory.md`): what one FEED_BIT does in a
locked stream, the candidate as a window that slides over the bits received, thirty bits as one word (R54), and the Context under
the pure operations (R58). -/

namespace Sys2Proof.Machine

/-! ## One FEED_BIT cycle -/

/-- With an empty bench and a command presented, a step runs what the command port decodes (R80, R82). -/
theorem step_of_command {s : State} {y : Cycle} {rest : List Cycle} (hbench : s.bench = none) (hin : s.input = y :: rest)
    (hrst : y.rst = false) (hvalid : y.cmdValid = true) :
    step s = exec (decodeCommand (commandWord y.op y.din)) { s with input := rest } := by
  have hcoded : y.coded = some ⟨.command, (commandWord y.op y.din).toNat⟩ := by simp [Cycle.coded, hrst, hvalid]
  simp only [step, fetch_of_bench_empty s hbench, hin, List.head?_cons, List.tail_cons, Option.bind_some, hcoded,
    decode_command]

theorem step_of_feedBitCycle {s : State} {b : Bool} {rest : List Cycle} (hbench : s.bench = none)
    (hin : s.input = feedBitCycle b :: rest) : step s = execFeedBit b { s with input := rest } := by
  have hdec : decodeCommand (commandWord (feedBitCycle b).op (feedBitCycle b).din) = .feedBit b := by cases b <;> decide
  rw [step_of_command hbench hin rfl rfl, hdec]
  rfl

/-- R155: inside a word a locked FEED_BIT shifts and counts. -/
theorem execFeedBit_inside {b : Bool} {s : State} (hl : s.ctx.lock = true) (hb : s.ctx.bitoff ≠ 29) :
    execFeedBit b s = .next (s.reply { s.ctx.shiftIn b with bitoff := s.ctx.bitoff + 1 } .incomplete .none none) := by
  rcases execFeedBit_cases b s with ⟨h, _⟩ | ⟨h, _⟩ | ⟨_, _, h⟩ | ⟨_, h, _⟩ | ⟨_, h, _⟩
  · exact absurd (hl.symm.trans h) (by decide)
  · exact absurd (hl.symm.trans h) (by decide)
  · exact h
  · exact absurd h hb
  · exact absurd h hb

/-- R156, R157: the last bit of a word tests the parity of the candidate, and then loses lock or runs WORD_STEP. -/
theorem execFeedBit_last {b : Bool} {s : State} (hl : s.ctx.lock = true) (hb : s.ctx.bitoff = 29) :
    (parityOk (s.ctx.shiftIn b).acc = false ∧
      execFeedBit b s = .next (s.reply (s.ctx.shiftIn b).loss (.resyncing .parity) .syncLost none)) ∨
    (parityOk (s.ctx.shiftIn b).acc = true ∧
      execFeedBit b s = .next (s.replyStep (deinvert (s.ctx.shiftIn b).acc)
        (wordStep s.cfg (deinvert (s.ctx.shiftIn b).acc) { s.ctx.shiftIn b with bitoff := 0 }))) := by
  rcases execFeedBit_cases b s with ⟨h, _⟩ | ⟨h, _⟩ | ⟨_, h, _⟩ | ⟨_, _, h⟩ | ⟨_, _, h⟩
  · exact absurd (hl.symm.trans h) (by decide)
  · exact absurd (hl.symm.trans h) (by decide)
  · exact absurd hb h
  · exact .inl h
  · exact .inr h

/-- Where LOCK was 1 when the command began, WORD_STEP's event is not renamed (R150). -/
@[simp] theorem fromLock_true (e : SyncEvent) : e.fromLock true = e := by cases e <;> rfl

theorem loss_eq_reset (c : Context) : c.loss = { Context.reset with acc := c.acc } := rfl

/-! ## Steps one after another -/

/-- One step more: the runner takes its first step first, so the last one is split off by induction. -/
theorem run_succ_of_next (M : Host.Core) {k : Nat} {s u : M.State} (h : M.run k s = .next u) :
    M.run (k + 1) s = M.step u := by
  induction k generalizing s with
  | zero =>
    cases h
    rw [Host.Core.run]
    cases M.step u <;> rfl
  | succ k ih =>
    rw [Host.Core.run] at h ⊢
    cases hs : M.step s with
    | next t => rw [hs] at h; exact ih h
    | fault r | refused r => rw [hs] at h; cases h

theorem runSteps_succ_of_next {k : Nat} {s u : State} (h : runSteps k s = .next u) : runSteps (k + 1) s = step u :=
  run_succ_of_next Sys2Proof.core h

/-! ## The candidate as a window over the bits received -/

/-- ACC once `k` bits of `w` have followed `a`: 32 bits of the stream `a`, `w` (R15, R151). -/
def receivedWindow (a : Candidate) (w : Word) (k : Nat) : Candidate := (a ++ w).extractLsb' (30 - k) 32

theorem receivedWindow_getLsbD (a : Candidate) (w : Word) (k : Nat) {i : Nat} (hi : i < 32) :
    (receivedWindow a w k).getLsbD i =
      if 30 - k + i < 30 then w.getLsbD (30 - k + i) else a.getLsbD (30 - k + i - 30) := by
  rw [receivedWindow, BitVec.getLsbD_extractLsb', BitVec.getLsbD_append, decide_eq_true hi, Bool.true_and]

theorem receivedWindow_zero (a : Candidate) (w : Word) : receivedWindow a w 0 = a := by
  refine BitVec.eq_of_getLsbD_eq fun i hi => ?_
  rw [receivedWindow_getLsbD a w 0 hi, if_neg (by omega), Nat.sub_zero, Nat.add_sub_cancel_left]

/-- After the whole word: the last two bits before it, then the word (R122). -/
theorem receivedWindow_thirty (a : Candidate) (w : Word) : receivedWindow a w 30 = a.extractLsb' 0 2 ++ w := by
  refine BitVec.eq_of_getLsbD_eq fun i hi => ?_
  rw [receivedWindow_getLsbD a w 30 hi, BitVec.getLsbD_append, BitVec.getLsbD_extractLsb', Nat.sub_self, Nat.zero_add,
    Nat.zero_add, decide_eq_true (by omega : i - 30 < 2), Bool.true_and]

/-- Shifting in the next bit of the word slides the window by one (R54, R151). -/
theorem shiftIn_acc_receivedWindow {c : Context} {a : Candidate} {w : Word} {k : Nat} (hk : k < 30)
    (hc : c.acc = receivedWindow a w k) : (c.shiftIn (w.getLsbD (29 - k))).acc = receivedWindow a w (k + 1) := by
  refine BitVec.eq_of_getLsbD_eq fun i hi => ?_
  rw [receivedWindow_getLsbD a w (k + 1) hi, Context.shiftIn, BitVec.getLsbD_append, extract, BitVec.getLsbD_extractLsb',
    hc]
  cases i with
  | zero =>
    have hpos : 30 - (k + 1) + 0 = 29 - k := by omega
    rw [hpos, if_pos (by decide), if_pos (by omega)]
    simp
  | succ i =>
    have hpos : 30 - (k + 1) + (i + 1) = 30 - k + i := by omega
    rw [hpos, if_neg (by omega), Nat.zero_add, Nat.add_sub_cancel, receivedWindow_getLsbD a w k (by omega),
      decide_eq_true (by omega : i < 31), Bool.true_and]

/-! ## Inside a word -/

/-- `u` is `s`, at a word boundary with `w` to be received and then `rest`, once the first `k` bits of `w` are in. -/
structure InsideWord (s : State) (w : Word) (rest : List Cycle) (k : Nat) (u : State) : Prop where
  bench_empty : u.bench = none
  cfg_eq : u.cfg = s.cfg
  input_eq : u.input = ((bitsOfWord w).drop k).map feedBitCycle ++ rest
  ctx_eq : u.ctx = { s.ctx with bitoff := BitVec.ofNat 5 k, acc := receivedWindow s.ctx.acc w k }

/-- The first bit of `w` not yet received after `k` is its bit `29 - k` (R54). -/
theorem drop_bitsOfWord {k : Nat} (w : Word) (hk : k < 30) :
    (bitsOfWord w).drop k = w.getLsbD (29 - k) :: (bitsOfWord w).drop (k + 1) := by
  have hlen : k < (bitsOfWord w).length := by simpa [bitsOfWord] using hk
  rw [List.drop_eq_getElem_cons hlen]
  simp [bitsOfWord]

section Word
variable {s u : State} {w : Word} {rest : List Cycle} {k : Nat}

theorem InsideWord.step_eq (h : InsideWord s w rest k u) (hk : k < 30) :
    step u = execFeedBit (w.getLsbD (29 - k))
      { u with input := ((bitsOfWord w).drop (k + 1)).map feedBitCycle ++ rest } := by
  refine step_of_feedBitCycle h.bench_empty ?_
  rw [h.input_eq, drop_bitsOfWord w hk, List.map_cons, List.cons_append]

theorem InsideWord.lock_eq (h : InsideWord s w rest k u) : u.ctx.lock = s.ctx.lock := by rw [h.ctx_eq]

theorem InsideWord.bitoff_toNat (h : InsideWord s w rest k u) (hk : k < 30) : u.ctx.bitoff.toNat = k := by
  rw [h.ctx_eq]
  exact Nat.mod_eq_of_lt (by omega)

/-- The Context once one bit more is shifted in, BITOFF apart. -/
theorem InsideWord.shiftIn_eq (h : InsideWord s w rest k u) (hk : k < 30) :
    u.ctx.shiftIn (w.getLsbD (29 - k)) =
      { s.ctx with bitoff := BitVec.ofNat 5 k, acc := receivedWindow s.ctx.acc w (k + 1) } := by
  have hacc : u.ctx.acc = receivedWindow s.ctx.acc w k := by rw [h.ctx_eq]
  have hrest : u.ctx.shiftIn (w.getLsbD (29 - k)) =
      { u.ctx with acc := (u.ctx.shiftIn (w.getLsbD (29 - k))).acc } := rfl
  rw [hrest, shiftIn_acc_receivedWindow hk hacc, h.ctx_eq]

/-- At the boundary no bit of the word is in. -/
theorem insideWord_zero (hbench : s.bench = none) (hb : s.ctx.bitoff = 0)
    (hin : s.input = (bitsOfWord w).map feedBitCycle ++ rest) : InsideWord s w rest 0 s where
  bench_empty := hbench
  cfg_eq := rfl
  input_eq := hin
  ctx_eq := by rw [receivedWindow_zero]; exact congrArg (fun x => { s.ctx with bitoff := x }) hb

/-- Before the 30th bit, one step takes one bit more and reports nothing (R155). -/
theorem InsideWord.step_next (h : InsideWord s w rest k u) (hl : s.ctx.lock = true) (hk : k < 29) :
    ∃ t o, step u = .next t ∧ InsideWord s w rest (k + 1) t ∧ t.out = some o ∧ o.result = .incomplete ∧
      o.event = .none := by
  have hb : u.ctx.bitoff ≠ 29 := fun he => by
    have hn := h.bitoff_toNat (by omega)
    rw [he] at hn
    exact absurd hn (Nat.ne_of_gt hk)
  refine ⟨_, _, (h.step_eq (by omega)).trans (execFeedBit_inside (h.lock_eq.trans hl) hb),
    ⟨h.bench_empty, h.cfg_eq, rfl, ?_⟩, rfl, rfl, rfl⟩
  rw [reply_ctx, h.shiftIn_eq (by omega), h.ctx_eq]
  simp [BitVec.ofNat_add]

/-- The bits of a word before its last, one after another. -/
theorem runSteps_insideWord (h : InsideWord s w rest 0 s) (hl : s.ctx.lock = true) (k : Nat) (hk : k ≤ 29) :
    ∃ u, runSteps k s = .next u ∧ InsideWord s w rest k u ∧
      (0 < k → ∃ o, u.out = some o ∧ o.result = .incomplete ∧ o.event = .none) := by
  induction k with
  | zero => exact ⟨s, rfl, h, fun h0 => absurd h0 (Nat.lt_irrefl 0)⟩
  | succ k ih =>
    obtain ⟨u, hrun, hu, _⟩ := ih (by omega)
    obtain ⟨t, o, hstep, ht, hout⟩ := hu.step_next hl (by omega)
    exact ⟨t, (runSteps_succ_of_next hrun).trans hstep, ht, fun _ => ⟨o, hout⟩⟩

/-- The 30th bit tests the candidate `a` of the last two bits of ACC and the word (R156, R157). -/
theorem InsideWord.step_last (h : InsideWord s w rest 29 u) (hl : s.ctx.lock = true) (hb : s.ctx.bitoff = 0)
    {a : Candidate} (ha : receivedWindow s.ctx.acc w 30 = a) :
    (parityOk a = false ∧ step u = .next (State.reply { u with input := rest } { Context.reset with acc := a }
      (.resyncing .parity) .syncLost none)) ∨
    (parityOk a = true ∧ step u = .next (State.replyStep { u with input := rest } (deinvert a)
      (wordStep s.cfg (deinvert a) { s.ctx with acc := a }))) := by
  have hshift : u.ctx.shiftIn (w.getLsbD 0) = { s.ctx with bitoff := 29, acc := a } := by
    rw [← ha]; exact h.shiftIn_eq (by decide)
  have hbound : ({ s.ctx with bitoff := 0, acc := a } : Context) = { s.ctx with acc := a } := by rw [← hb]
  have hbit : u.ctx.bitoff = 29 := by rw [h.ctx_eq]; rfl
  have hstep : step u = execFeedBit (w.getLsbD 0) { u with input := rest } := h.step_eq (by decide)
  rw [hstep, ← h.cfg_eq]
  rcases execFeedBit_last (b := w.getLsbD 0) (s := { u with input := rest }) (h.lock_eq.trans hl) hbit
    with ⟨hpar, he⟩ | ⟨hpar, he⟩ <;> simp only [hshift, loss_eq_reset, hbound] at hpar he
  · exact .inl ⟨hpar, he⟩
  · exact .inr ⟨hpar, he⟩

end Word

/-! ## The statements -/

/-- Settles O59: 29 steps inside the word, then the 30th. -/
theorem thirtyBitsAreOneWord : Obligations.ThirtyBitsAreOneWord := by
  intro s w rest hbench hl hb hin a x
  have h0 := insideWord_zero hbench hb hin
  refine ⟨fun k hk hk30 => ?_, ?_⟩
  · obtain ⟨u, hrun, hu, hout⟩ := runSteps_insideWord h0 hl k (by omega)
    obtain ⟨o, ho, hres, hev⟩ := hout hk
    exact ⟨u, o, hrun, ho, hres, hev, hu.lock_eq.trans hl, hu.bitoff_toNat hk30⟩
  · obtain ⟨u, hrun, hu, _⟩ := runSteps_insideWord h0 hl 29 (by decide)
    rw [runSteps_succ_of_next hrun]
    rcases hu.step_last hl hb (receivedWindow_thirty s.ctx.acc w) with ⟨hpar, hstep⟩ | ⟨hpar, hstep⟩
    · exact ⟨_, _, hstep, rfl, rfl, fun hgood => absurd (hgood.symm.trans hpar) (by decide), fun _ => ⟨rfl, rfl, rfl⟩⟩
    · refine ⟨_, _, hstep, rfl, rfl, fun _ => ⟨rfl, rfl, ?_⟩, fun hbad => absurd (hpar.symm.trans hbad) (by decide)⟩
      change x.2.2.fromLock u.ctx.lock = x.2.2
      rw [hu.lock_eq, hl, fromLock_true]

/-- Settles O51: a pure row's next state is the delivery of its value with the Context as it was. -/
theorem pureOperationsLeaveTheContext : Obligations.PureOperationsLeaveTheContext := by
  intro i s t hpure hx
  obtain ⟨f, hf⟩ := exec_of_isPure i hpure
  rw [hf] at hx
  cases hx
  exact ⟨rfl, rfl, _, rfl⟩

end Sys2Proof.Machine
end

section
/-! Proofs of the statements about the encodings (`30_encoding.md`): how a field of a packed word is read, the fields of each
layout word, decoding what the encoder writes (R81 to R92), the three records of a clump (R89), the layout and dispatch rows,
what a command shows (R80), the codes (R84), and what one step runs. -/

namespace Sys2Proof.Machine

/-! ## Reading a field (R121) -/

theorem extract_self {k : Nat} (v : BitVec k) : extract v 0 k = v := BitVec.extractLsb'_eq_self

theorem extract_append_high {m k : Nat} (x : BitVec m) (y : BitVec k) {lo n : Nat} (h : k ≤ lo) :
    extract (x ++ y) lo n = extract x (lo - k) n :=
  BitVec.extractLsb'_append_eq_of_le h

theorem extract_append_low {m k : Nat} (x : BitVec m) (y : BitVec k) {lo n : Nat} (h : lo + n ≤ k) :
    extract (x ++ y) lo n = extract y lo n :=
  BitVec.extractLsb'_append_eq_of_add_le h

/-- A field of a field is a field. -/
theorem extract_extract {k : Nat} (v : BitVec k) {lo m lo' n : Nat} (h : lo' + n ≤ m) :
    extract (extract v lo m) lo' n = extract v (lo + lo') n := by
  refine BitVec.eq_of_getLsbD_eq fun i hi => ?_
  simp only [extract, BitVec.getLsbD_extractLsb', decide_eq_true hi, decide_eq_true (by omega : lo' + i < m),
    Bool.true_and, Nat.add_assoc]

/-- Two fields that meet are one field. -/
theorem extract_append_extract {k : Nat} (v : BitVec k) {lo n lo' m : Nat} (h : lo' = lo + n) :
    extract v lo' m ++ extract v lo n = extract v lo (m + n) :=
  BitVec.extractLsb'_append_extractLsb'_eq_extractLsb' h

/-! ## The fields of each layout word (R81, R85 to R89) -/

@[simp] theorem commandWord_fields (op : BitVec 2) (din : BitVec 30) :
    extract (commandWord op din) 30 2 = op ∧ extract (commandWord op din) 0 30 = din := by
  simp (disch := decide) only [commandWord, extract_append_high, extract_append_low, extract_self, Nat.reduceSub, and_self]

@[simp] theorem rawWord_fields (d : Data) (x : Parity) :
    extract (rawWord d x) 6 24 = d ∧ extract (rawWord d x) 0 6 = x := by
  simp (disch := decide) only [rawWord, extract_append_high, extract_append_low, extract_self, Nat.reduceSub, and_self]

@[simp] theorem hw1Word_fields (preamble : BitVec 8) (t : BitVec 6) (staid : BitVec 10) (x : Parity) :
    let w := hw1Word preamble t staid x
    extract w 22 8 = preamble ∧ extract w 16 6 = t ∧ extract w 6 10 = staid ∧ extract w 0 6 = x := by
  simp (disch := decide) only [hw1Word, extract_append_high, extract_append_low, extract_self, Nat.reduceSub, and_self]

@[simp] theorem hw2Word_fields (z : BitVec 13) (q : BitVec 3) (n : BitVec 5) (h : BitVec 3) (x : Parity) :
    let w := hw2Word z q n h x
    extract w 17 13 = z ∧ extract w 14 3 = q ∧ extract w 9 5 = n ∧ extract w 6 3 = h ∧ extract w 0 6 = x := by
  simp (disch := decide) only [hw2Word, extract_append_high, extract_append_low, extract_self, Nat.reduceSub, and_self]

@[simp] theorem c0Word_fields (f : BitVec 1) (u : BitVec 2) (k : BitVec 5) (c : BitVec 16) (x : Parity) :
    let w := c0Word f u k c x
    extract w 29 1 = f ∧ extract w 27 2 = u ∧ extract w 22 5 = k ∧ extract w 6 16 = c ∧ extract w 0 6 = x := by
  simp (disch := decide) only [c0Word, extract_append_high, extract_append_low, extract_self, Nat.reduceSub, and_self]

@[simp] theorem c1Word_fields (r o : BitVec 8) (f : BitVec 1) (u : BitVec 2) (k : BitVec 5) (x : Parity) :
    let w := c1Word r o f u k x
    extract w 22 8 = r ∧ extract w 14 8 = o ∧ extract w 13 1 = f ∧ extract w 11 2 = u ∧ extract w 6 5 = k ∧
      extract w 0 6 = x := by
  simp (disch := decide) only [c1Word, extract_append_high, extract_append_low, extract_self, Nat.reduceSub, and_self]

@[simp] theorem c2Word_fields (c : BitVec 16) (r : BitVec 8) (x : Parity) :
    let w := c2Word c r x
    extract w 14 16 = c ∧ extract w 6 8 = r ∧ extract w 0 6 = x := by
  simp (disch := decide) only [c2Word, extract_append_high, extract_append_low, extract_self, Nat.reduceSub, and_self]

@[simp] theorem c3Word_fields (o : BitVec 8) (f : BitVec 1) (u : BitVec 2) (k : BitVec 5) (h : BitVec 8) (x : Parity) :
    let w := c3Word o f u k h x
    extract w 22 8 = o ∧ extract w 21 1 = f ∧ extract w 19 2 = u ∧ extract w 14 5 = k ∧ extract w 6 8 = h ∧
      extract w 0 6 = x := by
  simp (disch := decide) only [c3Word, extract_append_high, extract_append_low, extract_self, Nat.reduceSub, and_self]

@[simp] theorem c4Word_fields (l r o : BitVec 8) (x : Parity) :
    let w := c4Word l r o x
    extract w 22 8 = l ∧ extract w 14 8 = r ∧ extract w 6 8 = o ∧ extract w 0 6 = x := by
  simp (disch := decide) only [c4Word, extract_append_high, extract_append_low, extract_self, Nat.reduceSub, and_self]

@[simp] theorem satWord_fields (f : BitVec 1) (u : BitVec 2) (k : BitVec 5) (c : BitVec 16) (r o : BitVec 8) :
    let w := satWord f u k c r o
    extract w 39 1 = f ∧ extract w 37 2 = u ∧ extract w 32 5 = k ∧ extract w 16 16 = c ∧ extract w 8 8 = r ∧
      extract w 0 8 = o := by
  simp (disch := decide) only [satWord, extract_append_high, extract_append_low, extract_self, Nat.reduceSub, and_self]

/-- A header word 1 is made of its fields, preamble included (R86). -/
theorem hw1Word_of_fields (w : Word) :
    hw1Word (extract w 22 8) (extract w 16 6) (extract w 6 10) (extract w 0 6) = w := by
  simp (disch := rfl) only [hw1Word, extract_append_extract]
  exact extract_self w

/-- A satellite record is made of its fields (R89). -/
theorem satWord_of_fields (f : SatBits) :
    satWord (extract f 39 1) (extract f 37 2) (extract f 32 5) (extract f 16 16) (extract f 8 8) (extract f 0 8) = f := by
  simp (disch := rfl) only [satWord, extract_append_extract]
  exact extract_self f

/-- The operand of HEADER: header word 1 above header word 2. -/
theorem headerOperand_fields (b0 b1 : Word) :
    extract (b0 ++ b1) 30 30 = b0 ∧ extract (b0 ++ b1) 0 30 = b1 := by
  simp (disch := decide) only [extract_append_high, extract_append_low, extract_self, Nat.reduceSub, and_self]

/-- The operand of ENCODE_WORD: the data below, the two carry bits above. -/
theorem encodeWordOperand_fields (d : Data) (x29 x30 : Bool) :
    let v := encodeWordOperand d x29 x30
    extract v 0 24 = d ∧ v.getLsbD 25 = x29 ∧ v.getLsbD 24 = x30 := by
  refine ⟨(extract_append_low _ d (by rfl)).trans (extract_self d), ?_, ?_⟩ <;>
    (rw [encodeWordOperand, BitVec.getLsbD_append, BitVec.getLsbD_append]; simp)

/-! ## The command port (R81 to R83) -/

theorem decodeCommand_commandWord (op : BitVec 2) (din : BitVec 30) :
    decodeCommand (commandWord op din) =
      if op = 0 then .feedBit (din.getLsbD 0) else if op = 1 then .feedWord din else if op = 2 then .desync
      else .reservedCmd := by
  have hbit : (commandWord op din).getLsbD 0 = din.getLsbD 0 := by
    rw [commandWord, BitVec.getLsbD_append, if_pos (by decide)]
  simp only [decodeCommand, commandWord_fields, hbit]

/-! ## The decoder's dispatch (R92) -/

/-- R92 in the order of R210: an illegal type, type 1, type 9, any other. -/
theorem decodeDispatch_hw1Word (p : Config.Params) (t : BitVec 6) (staid : BitVec 10) (x : Parity) :
    decodeDispatch p (hw1Word p.preamble t staid x) =
      if p.legalType t = false then .ok (.msgUnknown t staid x)
      else if t = 1 then .ok (.msgType1 staid x)
      else if t = 9 then .ok (.msgType9 staid x)
      else .ok (.msgRaw t staid x) := by
  simp only [decodeDispatch, hw1Word_fields, ne_eq, not_true_eq_false, if_false]

theorem decodeHw1_hw1Word (p : Config.Params) (t : BitVec 6) (staid : BitVec 10) (x : Parity) :
    decodeHw1 p (hw1Word p.preamble t staid x) = .ok (.hw1 t staid x) := by
  simp only [decodeHw1, hw1Word_fields, ne_eq, not_true_eq_false, if_false]

/-! ## Decoding what the encoder writes -/

/-- Bits that come from a vector of the form's width always fit, so only the form's own reading matters. -/
theorem decode_of_bitVec {p : Config.Params} {f : Form} {i : Instr} {n : Nat} (v : BitVec n) (hn : n = f.width)
    (h : decodeForm p f v.toNat = .ok i) : decode p ⟨f, v.toNat⟩ = .ok i :=
  (if_pos (hn ▸ v.isLt)).trans h

/-- A well-formed dispatch row is what its own header word decodes to. -/
theorem decode_dispatch {p : Config.Params} {i : Instr} {t : BitVec 6} {staid : BitVec 10} {x : Parity}
    (h : decodeDispatch p (hw1Word p.preamble t staid x) = .ok i) :
    decode p ⟨.dispatch, (hw1Word p.preamble t staid x).toNat⟩ = .ok i :=
  decode_of_bitVec _ rfl (by simpa [decodeForm] using h)

/-- The numeral of HEADER's operand is read as its two words. -/
theorem decodeForm_header (p : Config.Params) (v : BitVec 60) :
    decodeForm p .header v.toNat = .ok (.header (extract v 30 30) (extract v 0 30)) := rfl

/-- The numeral of ENCODE_WORD's operand is read as the data and the two bits above. -/
theorem decodeForm_encodeWord (p : Config.Params) (v : BitVec 26) :
    decodeForm p .encodeWord v.toNat = .ok (.encodeWord (extract v 0 24) (v.getLsbD 25) (v.getLsbD 24)) := rfl

/-- Decoding undoes encoding, row by row; only the dispatch rows need that the row is well-formed. -/
theorem decode_of_encode {p : Config.Params} {i : Instr} {c : Coded} (hwf : i.wellFormed p = true)
    (hc : encode p i = some c) : decode p c = .ok i := by
  cases i with
  | decode | slots | extract | render => cases hc
  | feedBit b =>
    cases hc
    rw [decode_command, decodeCommand_commandWord]
    cases b <;> rfl
  | feedWord | desync | reservedCmd => cases hc; rw [decode_command, decodeCommand_commandWord]; rfl
  | reset | loss | asmDiscard => cases hc; rfl
  | msgType1 staid x =>
    cases hc
    have hlegal : p.legalType 1 = true := hwf
    exact decode_dispatch (by rw [decodeDispatch_hw1Word, if_neg (ne_false_of_eq_true hlegal), if_pos rfl])
  | msgType9 staid x =>
    cases hc
    have hlegal : p.legalType 9 = true := hwf
    exact decode_dispatch
      (by rw [decodeDispatch_hw1Word, if_neg (ne_false_of_eq_true hlegal), if_neg (by decide), if_pos rfl])
  | msgRaw t staid x =>
    cases hc
    simp only [Instr.wellFormed, Bool.and_eq_true, bne_iff_ne] at hwf
    obtain ⟨⟨hlegal, h1⟩, h9⟩ := hwf
    exact decode_dispatch
      (by rw [decodeDispatch_hw1Word, if_neg (ne_false_of_eq_true hlegal), if_neg h1, if_neg h9])
  | msgUnknown t staid x =>
    cases hc
    exact decode_dispatch (by rw [decodeDispatch_hw1Word, if_pos (Bool.not_eq_true' _ ▸ hwf)])
  | hw1 t staid x => cases hc; exact decode_of_bitVec _ rfl (by simp [decodeForm, decodeHw1_hw1Word])
  | hw2 | c0 | c1 | c2 | c3 | c4 | satrec40 | rawword | wordStep | acceptWord | deinvert | parity6 | parityOk
  | preambleOk | satrec | prcScale | rrcScale => cases hc; exact decode_of_bitVec _ rfl (by simp [decodeForm])
  | encodeWord d x29 x30 =>
    cases hc
    obtain ⟨hd, h29, h30⟩ := encodeWordOperand_fields d x29 x30
    exact decode_of_bitVec _ rfl (by rw [decodeForm_encodeWord, hd, h29, h30])
  | header b0 b1 =>
    cases hc
    obtain ⟨h0, h1⟩ := headerOperand_fields b0 b1
    exact decode_of_bitVec _ rfl (by rw [decodeForm_header, h0, h1])

/-- The rows without bits are the four whose operand is a structure. -/
theorem encode_eq_none_iff (p : Config.Params) (i : Instr) :
    encode p i = none ↔ (∃ buf n, i = .decode buf n) ∨ (∃ buf n, i = .slots buf n) ∨
      (∃ v lo n, i = .extract v lo n) ∨ ∃ r, i = .render r := by
  cases i <;> simp [encode]

/-- Settles O45: the round trip row by row, and which rows have no bits. -/
theorem decodeOfEncodeIsIdentity : Obligations.DecodeOfEncodeIsIdentity :=
  fun p i hwf => ⟨fun _ => decode_of_encode hwf, encode_eq_none_iff p i⟩

/-! ## The bits of a satellite slot (R88, R89, R220) -/

/-- A word of the message gives its data bits (R220). -/
theorem dataWithin_of_lt (buf : List Word) {n i : Nat} (h : i < n) : dataWithin buf n i = dataOf (wordAt buf i) :=
  if_pos h

/-- A field of the data is a field of the word, six places up (R85). -/
theorem extract_dataOf (w : Word) {lo n : Nat} (h : lo + n ≤ 24) : extract (dataOf w) lo n = extract w (6 + lo) n :=
  extract_extract w h

/-- A satellite record is known by its fields (R89). -/
theorem eq_satWord {s : SatBits} {f : BitVec 1} {u : BitVec 2} {k : BitVec 5} {c : BitVec 16} {r o : BitVec 8}
    (hf : extract s 39 1 = f) (hu : extract s 37 2 = u) (hk : extract s 32 5 = k) (hc : extract s 16 16 = c)
    (hr : extract s 8 8 = r) (ho : extract s 0 8 = o) : s = satWord f u k c r o := by
  rw [← satWord_of_fields s, hf, hu, hk, hc, hr, ho]

/-- A field of a slot's record is a field of the clump's 120 bits (R220). -/
theorem extract_slotBits (buf : List Word) (n c j : Nat) (hj : j < 3) {lo m : Nat} (h : lo + m ≤ 40) :
    extract (slotBits buf n (3 * c + j)) lo m = extract (clumpBits buf n c) (80 - 40 * j + lo) m := by
  have hdiv : (3 * c + j) / 3 = c := by omega
  have hmod : (3 * c + j) % 3 = j := by omega
  rw [slotBits, hdiv, hmod, extract_extract _ h]

/-- Settles O28: each field lies in one word of the clump, PRC3 apart, whose two bytes meet. -/
theorem clumpWordsHoldThreeRecords : Obligations.ClumpWordsHoldThreeRecords := by
  intro buf n c f1 f2 f3 u1 u2 u3 i1 i2 i3 p1 p2 p3hi p3lo r1 r2 r3 o1 o2 o3 x0 x1 x2 x3 x4 hn h0 h1 h2 h3 h4
  have hclump : clumpBits buf n c = dataOf (c0Word f1 u1 i1 p1 x0) ++ dataOf (c1Word r1 o1 f2 u2 i2 x1) ++
      dataOf (c2Word p2 r2 x2) ++ dataOf (c3Word o2 f3 u3 i3 p3hi x3) ++ dataOf (c4Word p3lo r3 o3 x4) := by
    rw [clumpBits, dataWithin_of_lt, dataWithin_of_lt, dataWithin_of_lt, dataWithin_of_lt, dataWithin_of_lt, h0, h1, h2,
      h3, h4] <;> omega
  have hprc3 : extract (slotBits buf n (3 * c + 2)) 16 16 =
      extract (slotBits buf n (3 * c + 2)) 24 8 ++ extract (slotBits buf n (3 * c + 2)) 16 8 :=
    (extract_append_extract (n := 8) (m := 8) _ rfl).symm
  refine ⟨eq_satWord (s := slotBits buf n (3 * c + 0)) ?_ ?_ ?_ ?_ ?_ ?_, eq_satWord ?_ ?_ ?_ ?_ ?_ ?_,
    eq_satWord ?_ ?_ ?_ (hprc3.trans (congrArg₂ _ ?_ ?_)) ?_ ?_⟩ <;>
  · rw [extract_slotBits _ _ _ _ (by decide) (by decide)]
    simp only [Nat.reduceMul, Nat.reduceSub, Nat.reduceAdd]
    rw [hclump]
    simp (disch := decide) only [extract_append_high, extract_append_low, extract_dataOf, Nat.reduceSub]
    simp only [Nat.reduceAdd, c0Word_fields, c1Word_fields, c2Word_fields, c3Word_fields, c4Word_fields]

/-! ## The layout rows (R85 to R90) -/

/-- Settles O39: every field of the word formed is the field it was formed from. -/
theorem headerWordLayouts : Obligations.HeaderWordLayouts := by
  refine fun s => ⟨fun t staid x => ?_, fun z q n h x => ?_, fun d x => ?_⟩
  · simp [exec, execHw1, viewHw1, msgtypeOf, parOf]
  · simp [exec, execHw2, viewHw2, frmlenOf, parOf]
  · simp [exec, execRawword, dataOf, parOf]

/-- Settles O40: the fields again, PRC and RRC through `toInt` (R90). -/
theorem clumpWordLayouts : Obligations.ClumpWordLayouts := by
  refine fun s => ⟨fun f u k c x => ?_, fun r o f u k x => ?_, fun c r x => ?_, fun o f u k h x => ?_,
    fun l r o x => ?_, fun f u k c r o => ?_⟩
  · simp [exec, execC0, viewC0, parOf]
  · simp [exec, execC1, viewC1, parOf]
  · simp [exec, execC2, viewC2, parOf]
  · simp [exec, execC3, viewC3, parOf]
  · simp [exec, execC4, viewC4, parOf]
  · simp [exec, execSatrec40, satrec]

/-! ## The dispatch rows (R92) -/

/-- The header part of a record is cut from the two header words (R95, R213, R214). -/
theorem recHeader_eq_headerOfWords (b0 b1 : Word) : recHeader b0 b1 = headerOfWords b0 b1 := rfl

theorem bufWrite_toList (c : Context) (i : Nat) (w : Word) : (c.bufWrite i w).buf.toList = c.buf.toList.set i w :=
  Vector.toList_setIfInBounds

theorem wordAt_zero_set (c : Context) (w : Word) : wordAt (c.buf.toList.set 0 w) 0 = w := by
  rw [← bufWrite_toList, wordAt_toList, bufRead_bufWrite_same c 0 w (by decide)]

theorem wordAt_one_set (c : Context) (w : Word) : wordAt (c.buf.toList.set 0 w) 1 = c.bufRead 1 := by
  rw [← bufWrite_toList, wordAt_toList, bufRead_bufWrite_other c 0 1 w (by decide)]

/-- The dispatch of a header word 1 is DECODE on the buffer with that word at entry 0: the length checks hold (R212). -/
theorem dispatchHeader1_eq_decodeMessage (p : Config.Params) (w : Word) (c : Context) :
    dispatchHeader1 p w c = decodeMessage p (c.buf.toList.set 0 w) (2 + (frmlenOf (c.bufRead 1)).toNat) := by
  have hlen : (frmlenOf (c.bufRead 1)).toNat < 32 := (frmlenOf _).isLt
  rw [decodeMessage_of_length _ _ _ (by omega) (by omega) (by rw [wordAt_one_set]), dispatchHeader1, bufWrite_toList]

/-- The row that a header word 1 decodes to dispatches that word (R92). -/
theorem exec_of_decodeDispatch {w : Word} {i : Instr} {s : State} (h : decodeDispatch s.cfg w = .ok i) :
    exec i s = .next (s.deliver s.ctx (.result (dispatchHeader1 s.cfg w s.ctx))) := by
  by_cases hp : extract w 22 8 = s.cfg.preamble
  · rw [← hw1Word_of_fields w, hp] at h ⊢
    rw [decodeDispatch_hw1Word] at h
    split_ifs at h with _ h1 h9 <;> cases h
    · rfl
    · rw [h1]; rfl
    · rw [h9]; rfl
    · rfl
  · rw [decodeDispatch, if_pos hp] at h
    cases h

/-- Settles O23: the row dispatches the word it was decoded from, and on that message DECODE's length checks hold. -/
theorem dispatchRowIsWhatDecodeAnswers : Obligations.DispatchRowIsWhatDecodeAnswers := by
  intro w i s h
  rw [exec_of_decodeDispatch h, dispatchHeader1_eq_decodeMessage]

/-- The dispatch of a header word 1 of type `t`, in the order of R210. -/
theorem dispatchHeader1_hw1Word (p : Config.Params) (t : BitVec 6) (staid : BitVec 10) (x : Parity) (c : Context) :
    let w := hw1Word p.preamble t staid x
    let frmlen := frmlenOf (c.bufRead 1)
    let h := headerOfWords w (c.bufRead 1)
    let buf := c.buf.toList.set 0 w
    dispatchHeader1 p w c =
      if p.legalType t = false then .error .unknownType
      else if frmlen = 0 then .complete (.headerOnly h)
      else if t = 1 ∨ t = 9 then .complete (.corrections h (countPresent (slots buf frmlen)) (slots buf frmlen))
      else .complete (.raw h t (BitVec.ofNat 6 (2 + frmlen.toNat)) (buf.take (2 + frmlen.toNat))) := by
  intro w frmlen h buf
  have ht : h.msgtype = t := (hw1Word_fields p.preamble t staid x).2.1
  rw [dispatchHeader1, bufWrite_toList, dispatchRecord, wordAt_zero_set, wordAt_one_set, recHeader_eq_headerOfWords]
  change (if p.legalType h.msgtype = false then _ else if frmlen = 0 then _ else if h.msgtype = 1 ∨ h.msgtype = 9 then _
    else _) = _
  rw [ht]
  rfl

/-- Settles O22: each row is the dispatch of its own header word 1, whose type takes it to one arm. -/
theorem dispatchRows : Obligations.DispatchRows := by
  intro t staid x s w frmlen h buf corrections
  have hrow := dispatchHeader1_hw1Word s.cfg t staid x s.ctx
  have delivered {r : Result} (h : dispatchHeader1 s.cfg w s.ctx = r) :
      Host.Outcome.next (s.deliver s.ctx (.result (dispatchHeader1 s.cfg w s.ctx))) =
        (.next (s.deliver s.ctx (.result r)) : Host.Outcome State Fault Refusal) := by rw [h]
  refine ⟨?_, ?_, fun hlegal h1 h9 => ?_, fun hillegal => ?_⟩
  · rintro rfl hlegal
    have hsats : (1 : BitVec 6) = 1 ∨ (1 : BitVec 6) = 9 := .inl rfl
    exact delivered (by rw [hrow, if_neg (ne_false_of_eq_true hlegal), if_pos hsats])
  · rintro rfl hlegal
    have hsats : (9 : BitVec 6) = 1 ∨ (9 : BitVec 6) = 9 := .inr rfl
    exact delivered (by rw [hrow, if_neg (ne_false_of_eq_true hlegal), if_pos hsats])
  · have hsats : ¬ (t = 1 ∨ t = 9) := not_or.mpr ⟨h1, h9⟩
    exact delivered (by rw [hrow, if_neg (ne_false_of_eq_true hlegal), if_neg hsats])
  · exact delivered (by rw [hrow, if_pos hillegal])

/-! ## Command outputs (R80) -/

/-- R80: a word is shown exactly with WORD and LOCK_ACQUIRED. -/
theorem wordOut_isSome_iff (e : SyncEvent) (w : Word) : (wordOut e w).isSome ↔ e = .word ∨ e = .lockAcquired := by
  cases e <;> simp [wordOut]

theorem eq_of_wordOut {e : SyncEvent} {w v : Word} (h : wordOut e w = some v) : v = w := by
  cases e <;> cases h <;> rfl

/-- A command answers without a word and with neither of the word events, or with WORD_STEP's answer on the candidate
(FEED_BIT) or on its operand (FEED_WORD). -/
theorem exec_of_isCommand {i : Instr} {s t : State} (hi : isCommand i = true) (hx : exec i s = .next t) :
    (∃ c r e, t = s.reply c r e none ∧ e ≠ .word ∧ e ≠ .lockAcquired) ∨
    ∃ w x, t = s.replyStep w x ∧ (∀ b, i = .feedBit b → w = deinvert t.ctx.acc) ∧
      ∀ v, i = .feedWord v → w = v := by
  cases i with
  | feedBit b =>
    have hacc : t.ctx.acc = (s.ctx.shiftIn b).acc := execFeedBit_acc hx
    rw [hacc]
    rcases execFeedBit_cases b s with ⟨_, _, h⟩ | ⟨_, _, h⟩ | ⟨_, _, h⟩ | ⟨_, _, _, h⟩ | ⟨_, _, _, h⟩ <;>
      cases h.symm.trans hx
    · exact .inr ⟨_, _, rfl, fun _ _ => rfl, fun _ hw => nomatch hw⟩
    · exact .inl ⟨_, _, _, rfl, by decide, by decide⟩
    · exact .inl ⟨_, _, _, rfl, by decide, by decide⟩
    · exact .inl ⟨_, _, _, rfl, by decide, by decide⟩
    · exact .inr ⟨_, _, rfl, fun _ _ => rfl, fun _ hw => nomatch hw⟩
  | feedWord w =>
    rcases execFeedWord_cases w s with ⟨_, h⟩ | ⟨_, h⟩ <;> cases h.symm.trans hx
    · exact .inl ⟨_, _, _, rfl, by decide, by decide⟩
    · exact .inr ⟨_, _, rfl, fun _ hb => (nomatch hb), fun _ hw => Instr.feedWord.inj hw⟩
  | desync | reservedCmd => cases hx; exact .inl ⟨_, _, _, rfl, by decide, by decide⟩
  | _ => cases hi

/-- Settles O52, from the two ways a command answers. -/
theorem commandOutputs : Obligations.CommandOutputs := by
  intro i s t hi hx
  rcases exec_of_isCommand hi hx with ⟨c, r, e, rfl, hword, hlock⟩ | ⟨w, x, rfl, hbit, hfeed⟩
  · exact ⟨_, rfl, rfl, rfl, rfl, by simp [hword, hlock], fun _ _ _ h => (nomatch h), fun _ _ _ h => nomatch h⟩
  · exact ⟨_, rfl, rfl, rfl, rfl, wordOut_isSome_iff _ w, fun b _ hb h => (eq_of_wordOut h).trans (hbit b hb),
      fun v _ hv h => (eq_of_wordOut h).trans (hfeed v hv)⟩

/-! ## The command word and the codes (R81 to R84) -/

/-- Settles O43: the fields of the command word for each op; and every command word decodes to a command. -/
theorem commandWordDecodes : Obligations.CommandWordDecodes :=
  ⟨fun din => ⟨decodeCommand_commandWord 0 din, decodeCommand_commandWord 1 din, decodeCommand_commandWord 2 din,
    decodeCommand_commandWord 3 din⟩, isCommand_decodeCommand⟩

/-- Settles O13: the command word is one of O43's, and REFUSED is the command's whole answer. -/
theorem reservedCommandChangesNoState : Obligations.ReservedCommandChangesNoState :=
  ⟨fun din => decodeCommand_commandWord 3 din, fun _ => rfl⟩

/-- `res` has no code 7 (R84). -/
theorem resCode_ne_seven (r : Result) : r.resCode ≠ 7 := by
  cases r with
  | complete r => cases r <;> simp [Result.resCode]
  | incomplete | resyncing | error | refused => simp [Result.resCode]

/-- Settles O41: the tables of R84 are the codes' own equations. -/
theorem portCodes : Obligations.PortCodes :=
  ⟨fun _ => ⟨rfl, rfl, rfl, rfl⟩, fun _ _ _ _ _ _ => ⟨rfl, rfl, rfl⟩, fun _ => ⟨rfl, rfl⟩, fun _ => ⟨rfl, rfl, rfl⟩,
    rfl, rfl, resCode_ne_seven⟩

/-- Settles O44: fixed words, each decoded by evaluation. -/
theorem writtenWordsDecode : Obligations.WrittenWordsDecode := by
  refine ⟨?_, ?_, ?_, ?_, ?_, ?_, ?_, ?_⟩ <;> decide

/-! ## One step -/

/-- A row on the bench is run first, and taken off it (assumption 4). -/
theorem step_of_bench {s : State} {c : Coded} {i : Instr} (hbench : s.bench = some c) (hd : decode s.cfg c = .ok i) :
    step s = exec i { s with bench := none } := by
  have hf : fetch s = (some c, { s with bench := none }) := by rw [fetch, hbench]
  rw [step, hf]
  simp only [hd]

/-- A port cycle that presents bits runs what they decode to. -/
theorem step_of_coded {s : State} {y : Cycle} {rest : List Cycle} {c : Coded} {i : Instr} (hbench : s.bench = none)
    (hin : s.input = y :: rest) (hy : y.coded = some c) (hd : decode s.cfg c = .ok i) :
    step s = exec i { s with input := rest } := by
  rw [step, fetch_of_bench_empty s hbench, hin]
  simp only [List.head?_cons, List.tail_cons, Option.bind_some, hy, hd]

/-- A cycle that presents nothing changes only the outputs. -/
theorem step_of_idle {s : State} (hbench : s.bench = none) (hidle : s.input.head?.bind Cycle.coded = none) :
    step s = .next { s with input := s.input.tail, out := none, value := none } := by
  rw [step, fetch_of_bench_empty s hbench, hidle]
  rfl

theorem coded_of_rst {y : Cycle} (h : y.rst = true) : y.coded = some ⟨.rst, 1⟩ := if_pos h

/-- Settles O46, from what one step does with each thing that can be presented. -/
theorem stepRunsTheDecodedInstruction : Obligations.StepRunsTheDecodedInstruction := by
  refine fun s => ⟨fun y rest hbench hin hrst => ?_, fun y rest hbench hin hrst hvalid => ?_,
    fun y rest hbench hin hrst hvalid => ?_, fun hbench hin => ?_, fun c i hbench hd _ => ?_⟩
  · exact step_of_coded hbench hin (coded_of_rst hrst) rfl
  · exact step_of_command hbench hin hrst hvalid
  · have hidle : s.input.head?.bind Cycle.coded = none := by simp [hin, Cycle.coded, hrst, hvalid]
    rw [step_of_idle hbench hidle, hin]
    rfl
  · have hkept : s.input.tail = s.input := by rw [hin]; rfl
    rw [step_of_idle hbench (by rw [hin]; rfl), hkept]
  · exact step_of_bench hbench hd

/-- Bits that decode fit their form. -/
theorem bits_lt_of_decode {p : Config.Params} {c : Coded} {i : Instr} (h : decode p c = .ok i) :
    c.bits < 2 ^ c.form.width := by
  by_contra hlt
  rw [decode, if_neg hlt] at h
  cases h

/-- The port cycle of a command word presents that word (R81). -/
theorem coded_ofCommand (b : BitVec 32) : (Cycle.ofCommand b).coded = some ⟨.command, b.toNat⟩ := by
  have hword : commandWord (extract b 30 2) (extract b 0 30) = b :=
    (extract_append_extract b rfl).trans (extract_self b)
  exact congrArg (fun v : BitVec 32 => some (Coded.mk .command v.toNat)) hword

/-- What is placed is what the next step runs, through the port or from the bench. -/
theorem step_placeCoded {s : State} {c : Coded} {i : Instr} (hd : decode s.cfg c = .ok i) :
    step (placeCoded s c) = exec i { s with bench := none } := by
  have hlt := bits_lt_of_decode hd
  obtain ⟨f, b⟩ := c
  cases f with
  | command =>
    have hbits : (BitVec.ofNat 32 b).toNat = b := Nat.mod_eq_of_lt hlt
    exact step_of_coded (s := placeCoded s ⟨.command, b⟩) rfl rfl (coded_ofCommand _) (by rw [hbits]; exact hd)
  | rst =>
    have hb : b = 1 := by
      by_contra hne
      rw [decode, if_pos hlt, decodeForm, if_neg hne] at hd
      cases hd
    subst hb
    exact step_of_coded (s := placeCoded s ⟨.rst, 1⟩) rfl rfl rfl hd
  | _ => exact step_of_bench (s := placeCoded s ⟨_, b⟩) rfl hd

/-- Settles O47: `withFetchWord` places the row that the numeral is read as. -/
theorem placedRowIsWhatTheNextStepRuns : Obligations.PlacedRowIsWhatTheNextStepRuns := by
  intro s nbits w c i hc hd
  rw [State.withFetchWord, hc]
  exact step_placeCoded hd

end Sys2Proof.Machine
end

section
/-! Proofs of the statements about the word codec (`40_word_codec.md`): the de-inversion and what is received of a transmitted
word (R123, R129), the parity equations as masks (R124, R125), the parity of an error pattern and what is detected (R128), and
the fields, the predicates and the scales (R121, R126, R127, R130 to R132). -/

namespace Sys2Proof.Machine

/-! ## The inversion of the data bits (R123) -/

/-- Two exclusive ors of pairs are paired the other way. -/
theorem xor_interchange (a b c d : Bool) : ((a ^^ b) ^^ (c ^^ d)) = ((a ^^ c) ^^ (b ^^ d)) := by
  rw [Bool.xor_assoc, Bool.xor_left_comm b c d, Bool.xor_assoc]

theorem getLsbD_invertBy (c : Bool) (d : Data) {i : Nat} (hi : i < 24) :
    (invertBy c d).getLsbD i = (d.getLsbD i ^^ c) := by
  have hones : (0xFFFFFF : Data) = BitVec.allOnes 24 := by decide
  cases c
  · simp [invertBy]
  · rw [invertBy, if_pos rfl, hones, BitVec.getLsbD_xor, BitVec.getLsbD_allOnes, decide_eq_true hi]

@[simp] theorem invertBy_invertBy (c : Bool) (d : Data) : invertBy c (invertBy c d) = d :=
  BitVec.eq_of_getLsbD_eq fun i hi => by
    rw [getLsbD_invertBy c _ hi, getLsbD_invertBy c d hi, Bool.xor_assoc, Bool.xor_self, Bool.xor_false]

theorem invertBy_xor (c c' : Bool) (d d' : Data) :
    invertBy (c ^^ c') (d ^^^ d') = invertBy c d ^^^ invertBy c' d' :=
  BitVec.eq_of_getLsbD_eq fun i hi => by
    simp only [getLsbD_invertBy, hi, BitVec.getLsbD_xor]
    exact xor_interchange _ _ _ _

/-- The inversion is its own inverse, so it passes from one side of an equation to the other. -/
theorem invertBy_eq_iff (c : Bool) (d e : Data) : invertBy c d = e ↔ d = invertBy c e :=
  Function.Involutive.eq_iff (invertBy_invertBy c)

@[simp] theorem extract_deinvert_data (a : Candidate) : extract (deinvert a) 6 24 = invertBy (c30 a) (extract a 6 24) :=
  (rawWord_fields _ _).1

@[simp] theorem extract_deinvert_parity (a : Candidate) : extract (deinvert a) 0 6 = extract a 0 6 :=
  (rawWord_fields _ _).2

/-- A word is its data over its parity bits (R120). -/
theorem rawWord_of_fields (w : Word) : rawWord (extract w 6 24) (extract w 0 6) = w :=
  (extract_append_extract w rfl).trans (extract_self w)

theorem eq_rawWord_iff (w : Word) (d : Data) (x : Parity) :
    w = rawWord d x ↔ extract w 6 24 = d ∧ extract w 0 6 = x := by
  constructor
  · rintro rfl
    exact rawWord_fields d x
  · rintro ⟨rfl, rfl⟩
    exact (rawWord_of_fields w).symm

/-! ## A candidate of two carry bits and a word (R122) -/

section Candidate
variable (x y : Bool) (w : Word)

@[simp] theorem c29_candidate : c29 (BitVec.ofBool x ++ BitVec.ofBool y ++ w) = x := by
  rw [c29, BitVec.getLsbD_append, BitVec.getLsbD_append]
  simp

@[simp] theorem c30_candidate : c30 (BitVec.ofBool x ++ BitVec.ofBool y ++ w) = y := by
  rw [c30, BitVec.getLsbD_append, BitVec.getLsbD_append]
  simp

end Candidate

/-- The carry bits of a candidate are its top two, whatever word follows. -/
theorem c30_carries_append (a : Candidate) (w : Word) : c30 (a.extractLsb' 30 2 ++ w) = c30 a := by
  rw [c30, BitVec.getLsbD_append]
  simp [c30]

/-! ## Fields as numbers, and the predicates (R121, R126, R127) -/

theorem extract_toNat {k : Nat} (w : BitVec k) (lo n : Nat) : (extract w lo n).toNat = w.toNat / 2 ^ lo % 2 ^ n := by
  rw [extract, BitVec.extractLsb'_toNat, Nat.shiftRight_eq_div_pow]

/-- R127: the preamble is what stands above the low 22 bits. -/
theorem preambleOk_iff (p : Config.Params) (w : Word) :
    preambleOk p w = true ↔ w.toNat / 2 ^ 22 = p.preamble.toNat := by
  have htop : w.toNat / 2 ^ 22 % 2 ^ 8 = w.toNat / 2 ^ 22 := Nat.mod_eq_of_lt (by have := w.isLt; omega)
  rw [preambleOk, beq_iff_eq, BitVec.toNat_eq, extract_toNat, htop]

theorem parityOk_iff (a : Candidate) : parityOk a = true ↔ parity6 a = extract a 0 6 := beq_iff_eq

/-! ## Exclusive or of bits at given positions (R124) -/

/-- The exclusive or of the bits of `v` at the positions `l`. -/
def xorBits {n : Nat} (v : BitVec n) (l : List Nat) : Bool := l.foldr (fun i x => v.getLsbD i ^^ x) false

@[simp] theorem xorBits_nil {n : Nat} (v : BitVec n) : xorBits v [] = false := rfl

@[simp] theorem xorBits_cons {n : Nat} (v : BitVec n) (i : Nat) (l : List Nat) :
    xorBits v (i :: l) = (v.getLsbD i ^^ xorBits v l) := rfl

theorem xorBits_append {n : Nat} (v : BitVec n) (l l' : List Nat) :
    xorBits v (l ++ l') = (xorBits v l ^^ xorBits v l') := by
  induction l with
  | nil => simp
  | cons i l ih => rw [List.cons_append, xorBits_cons, xorBits_cons, ih, Bool.xor_assoc]

theorem xorBits_perm {n : Nat} (v : BitVec n) {l l' : List Nat} (h : l.Perm l') : xorBits v l = xorBits v l' :=
  h.foldr_eq' (f := fun i x => v.getLsbD i ^^ x) (fun _ _ _ _ _ => Bool.xor_left_comm _ _ _) false

theorem xorBits_xor {n : Nat} (v v' : BitVec n) (l : List Nat) :
    xorBits (v ^^^ v') l = (xorBits v l ^^ xorBits v' l) := by
  induction l with
  | nil => rfl
  | cons i l ih =>
    rw [xorBits_cons, xorBits_cons, xorBits_cons, ih, BitVec.getLsbD_xor]
    exact xor_interchange _ _ _ _

/-- A mask chooses the positions of its ones. -/
theorem xorBits_and {n : Nat} (v m : BitVec n) (l : List Nat) : xorBits (v &&& m) l = xorBits v (l.filter m.getLsbD) := by
  induction l with
  | nil => rfl
  | cons i l ih =>
    rw [xorBits_cons, ih, BitVec.getLsbD_and, List.filter_cons]
    cases m.getLsbD i <;> simp

theorem xorAll_eq_xorBits (v : BitVec 32) : xorAll v = xorBits v (List.range 32) := rfl

theorem xorData_eq_xorBits (d : Data) (is : List Nat) : xorData d is = xorBits d (is.map (24 - ·)) :=
  (List.foldr_map (f := (24 - ·)) (g := fun i x => d.getLsbD i ^^ x)).symm

theorem xorData_xor (d d' : Data) (is : List Nat) : xorData (d ^^^ d') is = (xorData d is ^^ xorData d' is) := by
  simp only [xorData_eq_xorBits, xorBits_xor]

/-- Inverting the data changes an exclusive or exactly where it has an odd number of terms. -/
theorem xorData_invertBy (c : Bool) (d : Data) (is : List Nat) :
    xorData (invertBy c d) is = (xorData d is ^^ (c && xorData 0xFFFFFF is)) := by
  cases c <;> simp [invertBy, xorData_xor]

/-- `d_i` is bit `30 - i` of a candidate (R8, R124). -/
theorem xorBits_dataPositions (v : BitVec 32) {is : List Nat} (h : ∀ i ∈ is, 1 ≤ i ∧ i ≤ 24) :
    xorBits v (is.map (30 - ·)) = xorData (extract v 6 24) is := by
  induction is with
  | nil => rfl
  | cons i is ih =>
    obtain ⟨hi, his⟩ := List.forall_mem_cons.mp h
    have hbit : (extract v 6 24).getLsbD (24 - i) = v.getLsbD (30 - i) := by
      rw [extract, BitVec.getLsbD_extractLsb', decide_eq_true (by omega : 24 - i < 24), Bool.true_and]
      congr 1
      omega
    rw [List.map_cons, xorBits_cons, ih his, ← hbit]
    rfl

/-! ## The parity equations as masks (R124, R125) -/

/-- The data bits in the equation of parity bit `k`, `D30` being bit 0 (R124). -/
def equationData : Nat → List Nat
  | 5 => [1, 2, 3, 5, 6, 10, 11, 12, 13, 14, 17, 18, 20, 23]
  | 4 => [2, 3, 4, 6, 7, 11, 12, 13, 14, 15, 18, 19, 21, 24]
  | 3 => [1, 3, 4, 5, 7, 8, 12, 13, 14, 15, 16, 19, 20, 22]
  | 2 => [2, 4, 5, 6, 8, 9, 13, 14, 15, 16, 17, 20, 21, 23]
  | 1 => [1, 3, 5, 6, 7, 9, 10, 14, 15, 16, 17, 18, 21, 22, 24]
  | 0 => [3, 5, 6, 8, 9, 10, 11, 13, 15, 19, 22, 23, 24]
  | _ => []

/-- The position in the candidate of the carry bit in the equation of parity bit `k` (R122, R124). -/
def equationCarry : Nat → Nat
  | 5 | 3 | 0 => 31
  | _ => 30

theorem equationData_range {k : Nat} (hk : k < 6) : ∀ i ∈ equationData k, 1 ≤ i ∧ i ≤ 24 := by
  interval_cases k <;> decide

/-- Each parity bit is its carry bit and its data bits (R124). -/
theorem getLsbD_parityOf (d : Data) (a : Candidate) {k : Nat} (hk : k < 6) :
    (parityOf d (c29 a) (c30 a)).getLsbD k = (a.getLsbD (equationCarry k) ^^ xorData d (equationData k)) := by
  rw [parityOf]
  interval_cases k <;> simp only [BitVec.getLsbD_append, BitVec.getLsbD_ofBool] <;> rfl

theorem getLsbD_parity6 (a : Candidate) {k : Nat} (hk : k < 6) :
    (parity6 a).getLsbD k = (a.getLsbD (equationCarry k) ^^ xorData (extract (deinvert a) 6 24) (equationData k)) :=
  getLsbD_parityOf _ a hk

/-- A mask with ones at the positions `cs` and at those of the data bits `is`. -/
theorem xorAll_and_mask (v m : BitVec 32) {cs is : List Nat} (his : ∀ i ∈ is, 1 ≤ i ∧ i ≤ 24)
    (hm : ((List.range 32).filter m.getLsbD).Perm (cs ++ is.map (30 - ·))) :
    xorAll (v &&& m) = (xorBits v cs ^^ xorData (extract v 6 24) is) := by
  rw [xorAll_eq_xorBits, xorBits_and, xorBits_perm v hm, xorBits_append, xorBits_dataPositions v his]

/-- `X` of R124: the carry bits, the source data, six zeros. -/
def sourceBits (a : Candidate) : BitVec 32 := a.extractLsb' 30 2 ++ (deinvert a).extractLsb' 6 24 ++ (0 : BitVec 6)

theorem extract_sourceBits (a : Candidate) : extract (sourceBits a) 6 24 = extract (deinvert a) 6 24 := by
  rw [sourceBits, extract_append_high _ _ (by decide), extract_append_low _ _ (by decide)]
  exact extract_self _

theorem getLsbD_sourceBits_carry (a : Candidate) {k : Nat} (hk : k < 6) :
    (sourceBits a).getLsbD (equationCarry k) = a.getLsbD (equationCarry k) := by
  rw [sourceBits, BitVec.getLsbD_append, BitVec.getLsbD_append]
  interval_cases k <;> simp [equationCarry]

/-- R124: a mask with ones at the positions of the equation's bits gives the parity bit. -/
theorem getLsbD_parity6_source (a : Candidate) {m : BitVec 32} {k : Nat} (hk : k < 6)
    (hm : ((List.range 32).filter m.getLsbD).Perm (equationCarry k :: (equationData k).map (30 - ·))) :
    (parity6 a).getLsbD k = xorAll (sourceBits a &&& m) := by
  rw [xorAll_and_mask (cs := [equationCarry k]) _ _ (equationData_range hk) hm, extract_sourceBits, xorBits_cons,
    getLsbD_sourceBits_carry a hk, xorBits_nil, Bool.xor_false, getLsbD_parity6 a hk]

/-- `R` of R125: the received bits without the parity bits. -/
def receivedBits (a : Candidate) : BitVec 32 := a &&& 0xFFFFFFC0

theorem extract_receivedBits (a : Candidate) : extract (receivedBits a) 6 24 = extract a 6 24 := by
  have hones : (0xFFFFFFC0 : BitVec 32).extractLsb' 6 24 = BitVec.allOnes 24 := by decide
  rw [extract, receivedBits, BitVec.extractLsb'_and, hones, BitVec.and_allOnes, extract]

/-- R125: the same on the received bits. The inversion of the data adds `c30` once more where the equation has an odd number of
data bits, so there other carry bits, at `cs`, are taken. -/
theorem getLsbD_parity6_received (a : Candidate) {m : BitVec 32} {k : Nat} (cs : List Nat) (hk : k < 6)
    (hm : ((List.range 32).filter m.getLsbD).Perm (cs ++ (equationData k).map (30 - ·)))
    (hcs : xorBits (receivedBits a) cs =
      (a.getLsbD (equationCarry k) ^^ (c30 a && xorData 0xFFFFFF (equationData k)))) :
    (parity6 a).getLsbD k = xorAll (receivedBits a &&& m) := by
  rw [xorAll_and_mask _ _ (equationData_range hk) hm, extract_receivedBits, hcs, getLsbD_parity6 a hk,
    extract_deinvert_data, xorData_invertBy, Bool.xor_assoc, Bool.xor_comm (xorData _ _)]

/-! ## Errors (R128) -/

/-- Where the parity of a candidate and its low six bits differ. -/
def syndrome (a : Candidate) : Parity := parity6 a ^^^ extract a 0 6

theorem parityOk_iff_syndrome (a : Candidate) : parityOk a = true ↔ syndrome a = 0 :=
  (parityOk_iff a).trans BitVec.xor_eq_zero_iff.symm

theorem extract_xor {k : Nat} (v v' : BitVec k) (lo n : Nat) : extract (v ^^^ v') lo n = extract v lo n ^^^ extract v' lo n :=
  BitVec.extractLsb'_xor

theorem c30_xor (a b : Candidate) : c30 (a ^^^ b) = (c30 a ^^ c30 b) := BitVec.getLsbD_xor

theorem parity6_xor (a b : Candidate) : parity6 (a ^^^ b) = parity6 a ^^^ parity6 b := by
  refine BitVec.eq_of_getLsbD_eq fun k hk => ?_
  have hdata : extract (deinvert (a ^^^ b)) 6 24 = extract (deinvert a) 6 24 ^^^ extract (deinvert b) 6 24 := by
    simp only [extract_deinvert_data, c30_xor, extract_xor, invertBy_xor]
  rw [BitVec.getLsbD_xor, getLsbD_parity6 _ hk, getLsbD_parity6 _ hk, getLsbD_parity6 _ hk, hdata, xorData_xor,
    BitVec.getLsbD_xor]
  exact xor_interchange _ _ _ _

/-- The check is linear in the bits received (R128). -/
theorem syndrome_xor (a b : Candidate) : syndrome (a ^^^ b) = syndrome a ^^^ syndrome b := by
  rw [syndrome, syndrome, syndrome, parity6_xor, extract_xor]
  ac_rfl

/-- What becomes of a valid candidate does not depend on the word, but on the error only. -/
theorem parityOk_xor_eq_false_iff {a : Candidate} (ha : parityOk a = true) (e : Candidate) :
    parityOk (a ^^^ e) = false ↔ syndrome e ≠ 0 := by
  rw [← Bool.not_eq_true, parityOk_iff_syndrome, syndrome_xor, (parityOk_iff_syndrome a).mp ha]
  simp

/-- The syndromes of single bits, bit 0 first: the six parity bits, `d24` to `d1`, the two carry bits (`95_test_vectors.md`
section 2.2; there `c30` is given with the data de-inverted). -/
def bitSyndromes : List Parity :=
  [0x01, 0x02, 0x04, 0x08, 0x10, 0x20,
   0b010011, 0b100101, 0b001011, 0b010110, 0b101100, 0b011001, 0b110010, 0b100110, 0b001110, 0b011111, 0b111110, 0b111101,
   0b111000, 0b110001, 0b100011, 0b000111, 0b001101, 0b011010, 0b110111, 0b101111, 0b011100, 0b111011, 0b110100, 0b101010,
   0b010101, 0b101001]

theorem map_syndrome_bits : (List.range 32).map (fun i => syndrome ((1 : BitVec 32) <<< i)) = bitSyndromes := by decide

theorem syndrome_bit {i : Nat} (hi : i < 32) : bitSyndromes[i]? = some (syndrome ((1 : BitVec 32) <<< i)) := by
  rw [← map_syndrome_bits]
  simp [hi]

theorem syndrome_bit_ne_zero {i : Nat} (hi : i < 32) : syndrome ((1 : BitVec 32) <<< i) ≠ 0 := by
  have hne : ∀ p ∈ bitSyndromes, p ≠ 0 := by decide
  exact hne _ (List.mem_of_getElem? (syndrome_bit hi))

/-- No two bits have the same syndrome, the carry bits too. -/
theorem syndrome_bit_injective {i j : Nat} (hi : i < 32) (hj : j < 32)
    (h : syndrome ((1 : BitVec 32) <<< i) = syndrome ((1 : BitVec 32) <<< j)) : i = j := by
  have hnodup : bitSyndromes.Nodup := by decide
  exact (List.getElem?_inj hi hnodup).mp (by rw [syndrome_bit hi, syndrome_bit hj, h])

/-- A data bit alone leaves the low six bits 0, so its syndrome is the equations it enters. -/
theorem parity6_dataBit {i : Nat} (h6 : 6 ≤ i) : parity6 ((1 : BitVec 32) <<< i) = syndrome ((1 : BitVec 32) <<< i) := by
  have hlow : extract ((1 : BitVec 32) <<< i) 0 6 = 0 := BitVec.eq_of_getLsbD_eq fun k hk => by
    have hki : k < i := by omega
    simp [extract, hki]
  rw [syndrome, hlow]
  exact BitVec.xor_zero.symm

/-- How many of the six equations a syndrome violates. -/
def syndromeWeight (p : Parity) : Nat := (List.range 6).countP fun k => p.getLsbD k

theorem syndromeWeight_dataBit {i : Nat} (h6 : 6 ≤ i) (hi : i < 30) :
    syndromeWeight (syndrome ((1 : BitVec 32) <<< i)) = 3 ∨ syndromeWeight (syndrome ((1 : BitVec 32) <<< i)) = 5 := by
  have hweight : ∀ p ∈ (bitSyndromes.drop 6).take 24, syndromeWeight p = 3 ∨ syndromeWeight p = 5 := by decide
  refine hweight _ (List.mem_of_getElem? (i := i - 6) ?_)
  rw [List.getElem?_take_of_lt (by omega), List.getElem?_drop, Nat.add_sub_cancel' h6, syndrome_bit (by omega)]

/-! ## The statements -/

/-- Settles O31: the word's two fields bit by bit, and the inversion is its own inverse. -/
theorem deinvertUndoesTheInversion : Obligations.DeinvertUndoesTheInversion := by
  refine fun a s => ⟨deinvert a, rfl, fun i hi => ?_, fun i h6 hi => ?_, ?_⟩
  · have hbit := congrArg (·.getLsbD i) (extract_deinvert_parity a)
    simpa [extract, hi] using hbit
  · have hbit := congrArg (·.getLsbD (i - 6)) (extract_deinvert_data a)
    simp only [getLsbD_invertBy _ _ (by omega : i - 6 < 24)] at hbit
    simpa [extract, c30, (by omega : i - 6 < 24), Nat.add_sub_cancel' h6] using hbit
  · have hagain : deinvert (a.extractLsb' 30 2 ++ deinvert a) = rawWord (extract a 6 24) (extract a 0 6) := by
      rw [deinvert, c30_carries_append, extract_append_low _ _ (by decide), extract_append_low _ _ (by decide),
        extract_deinvert_data, extract_deinvert_parity, invertBy_invertBy]
    exact hagain.trans (extract_append_extract a rfl)

/-- Settles O32: the ones of each mask are the positions of its equation's bits; on the received bits `c30` drops out of D29 and
enters D30. -/
theorem parityEquationsAreTheMasks : Obligations.ParityEquationsAreTheMasks := by
  refine fun a s => ⟨parity6 a, rfl, ?_⟩
  intro x
  have source {m : BitVec 32} {k : Nat} := getLsbD_parity6_source a (m := m) (k := k)
  have received {m : BitVec 32} {k : Nat} := getLsbD_parity6_received a (m := m) (k := k)
  refine ⟨source (by decide) (by decide), source (by decide) (by decide), source (by decide) (by decide),
    source (by decide) (by decide), source (by decide) (by decide), source (by decide) (by decide),
    received [31] (by decide) (by decide) ?_, received [30] (by decide) (by decide) ?_,
    received [31] (by decide) (by decide) ?_, received [30] (by decide) (by decide) ?_,
    received [] (by decide) (by decide) ?_, received [31, 30] (by decide) (by decide) ?_⟩ <;>
  simp [receivedBits, equationCarry, equationData, xorData, c30]

/-- Settles O34: by linearity an error is passed exactly when its syndrome is 0, and the 32 single syndromes are distinct and not
0. The four bits of the last clause are three parity bits and the data bit that enters those three equations. -/
theorem oneOrTwoBitErrorsAreDetected : Obligations.OneOrTwoBitErrorsAreDetected := by
  refine ⟨fun a ha => ⟨fun i hi => ?_, fun i j hij hj => ?_⟩, fun i h6 hi => ?_, fun i j h6i hi h6j hj h => ?_,
    0x19815554, 0, 1, 2, 21, by decide, by decide, by decide, by decide, by decide, by decide⟩
  · exact (parityOk_xor_eq_false_iff ha _).mpr (syndrome_bit_ne_zero hi)
  · rw [BitVec.xor_assoc, parityOk_xor_eq_false_iff ha, syndrome_xor]
    exact fun h => hij.ne (syndrome_bit_injective (by omega) (by omega) (BitVec.xor_eq_zero_iff.mp h))
  · rw [parity6_dataBit h6]
    exact syndromeWeight_dataBit h6 hi
  · rw [parity6_dataBit h6i, parity6_dataBit h6j] at h
    exact syndrome_bit_injective (by omega) (by omega) h

/-- Settles O35: the data received fix the transmitted data bits, and then the parity test fixes the parity bits. -/
theorem encodedWordIsReceivedAsItsData : Obligations.EncodedWordIsReceivedAsItsData := by
  refine fun d x y s => ⟨encodeWord d x y, rfl, fun w => ?_⟩
  have hdata : (deinvert (BitVec.ofBool x ++ BitVec.ofBool y ++ w)).extractLsb' 6 24 = invertBy y (extract w 6 24) := by
    rw [← extract, extract_deinvert_data, c30_candidate, extract_append_low _ _ (by decide)]
  have hparity : parityOk (BitVec.ofBool x ++ BitVec.ofBool y ++ w) = true ↔
      parityOf (invertBy y (extract w 6 24)) x y = extract w 0 6 := by
    rw [parityOk_iff, parity6, c29_candidate, c30_candidate, extract_append_low _ _ (by decide), extract, hdata]
  rw [hparity, hdata, encodeWord, eq_rawWord_iff, ← invertBy_eq_iff]
  constructor
  · rintro ⟨hp, rfl⟩
    exact ⟨rfl, hp.symm⟩
  · rintro ⟨rfl, hp⟩
    exact ⟨hp.symm, rfl⟩

/-- Settles O30: a shift to the right is a division by a power of two. -/
theorem extractIsShiftAndMask : Obligations.ExtractIsShiftAndMask := by
  refine ⟨fun v lo n s => ?_, fun _ => extract_toNat⟩
  rw [← Nat.shiftRight_eq_div_pow]
  rfl

/-- Settles O33: each flag is the truth value of its predicate. -/
theorem parityOkAndPreambleOk : Obligations.ParityOkAndPreambleOk := by
  intro a w s
  have hparity : decide (parity6 a = a.extractLsb' 0 6) = parityOk a := Bool.eq_iff_iff.mpr (by
    rw [decide_eq_true_iff, parityOk_iff, extract])
  have hpreamble : decide (w.toNat / 2 ^ 22 = s.cfg.preamble.toNat) = preambleOk s.cfg w := Bool.eq_iff_iff.mpr (by
    rw [decide_eq_true_iff, preambleOk_iff])
  rw [hparity, hpreamble]
  exact ⟨rfl, rfl⟩

/-- Settles O36: HEADER and SATREC are compositions of EXTRACT. -/
theorem headerAndSatrecFields : Obligations.HeaderAndSatrecFields :=
  ⟨fun _ _ _ => rfl, fun _ _ => rfl⟩

/-- Settles O37: the two entries that each scale is read from. -/
theorem scaleBitSelectsTheScale : Obligations.ScaleBitSelectsTheScale := by
  intro k s
  rcases BitVec.eq_zero_or_eq_one k with rfl | rfl
  · exact ⟨rfl, rfl, rfl, rfl⟩
  · exact ⟨rfl, rfl, rfl, rfl⟩

/-- Settles O38: the table is closed, and each entry is checked by evaluation. -/
theorem romHoldsTheConstants : Obligations.RomHoldsTheConstants := by
  refine ⟨rfl, rfl, ?_⟩
  decide

end Sys2Proof.Machine
end

section
/-! Proofs of the statements about the bit synchronizer (`41_bit_synchronizer.md`): what one FEED_BIT does while unlocked, what
WORD_STEP does from each count of words, what LOSS leaves, and the pairing of sync events with results (R159). Then the
statements. -/

namespace Sys2Proof.Machine

/-! ## FEED_BIT while unlocked -/

theorem lockPoint_iff (p : Config.Params) (a : Candidate) :
    lockPoint p a = true ↔ preambleOk p (deinvert a) = true ∧ parityOk a = true := Bool.and_eq_true_iff

/-- R153, R154: an unlocked FEED_BIT runs WORD_STEP with the Context locked at a lock point, and only shifts elsewhere. -/
theorem execFeedBit_unlocked {b : Bool} {s : State} (hl : s.ctx.lock = false) :
    (lockPoint s.cfg (s.ctx.shiftIn b).acc = true ∧
      execFeedBit b s = .next (s.replyStep (deinvert (s.ctx.shiftIn b).acc)
        (wordStep s.cfg (deinvert (s.ctx.shiftIn b).acc) { s.ctx.shiftIn b with lock := true, bitoff := 0 }))) ∨
    (lockPoint s.cfg (s.ctx.shiftIn b).acc = false ∧
      execFeedBit b s = .next (s.reply (s.ctx.shiftIn b) .incomplete .none none)) := by
  rcases execFeedBit_cases b s with ⟨_, h⟩ | ⟨_, h⟩ | ⟨h, _⟩ | ⟨h, _⟩ | ⟨h, _⟩
  · exact .inl h
  · exact .inr h
  all_goals exact absurd (hl.symm.trans h) (by decide)

theorem execFeedBit_lockPoint {b : Bool} {s : State} (hl : s.ctx.lock = false)
    (hp : lockPoint s.cfg (s.ctx.shiftIn b).acc = true) :
    execFeedBit b s = .next (s.replyStep (deinvert (s.ctx.shiftIn b).acc)
      (wordStep s.cfg (deinvert (s.ctx.shiftIn b).acc) { s.ctx.shiftIn b with lock := true, bitoff := 0 })) := by
  rcases execFeedBit_unlocked (b := b) hl with ⟨_, h⟩ | ⟨hno, _⟩
  · exact h
  · exact absurd (hp.symm.trans hno) (by decide)

/-! ## FEED_BIT at a locked boundary -/

theorem execFeedBit_badParity {b : Bool} {s : State} (hl : s.ctx.lock = true) (hb : s.ctx.bitoff = 29)
    (hp : parityOk (s.ctx.shiftIn b).acc = false) :
    execFeedBit b s = .next (s.reply (s.ctx.shiftIn b).loss (.resyncing .parity) .syncLost none) := by
  rcases execFeedBit_last (b := b) hl hb with ⟨_, h⟩ | ⟨hgood, _⟩
  · exact h
  · exact absurd (hp.symm.trans hgood) (by decide)

/-- A candidate one bit away from a valid one is not valid (R128, R161). -/
theorem parityOk_eq_false_of_xor_bit {a : Candidate} {i : Nat} (hi : i < 32)
    (h : parityOk (a ^^^ ((1 : BitVec 32) <<< i)) = true) : parityOk a = false := by
  have hback : a ^^^ ((1 : BitVec 32) <<< i) ^^^ ((1 : BitVec 32) <<< i) = a := by
    rw [BitVec.xor_assoc, BitVec.xor_self, BitVec.xor_zero]
  rw [← hback]
  exact (parityOk_xor_eq_false_iff h _).mpr (syndrome_bit_ne_zero hi)

/-! ## FEED_WORD -/

theorem execFeedWord_onBoundary {s : State} (w : Word) (hb : s.ctx.bitoff = 0) :
    execFeedWord w s = .next (s.replyStep w (wordStep s.cfg w { s.ctx with lock := true })) := by
  rcases execFeedWord_cases w s with ⟨hoff, _⟩ | ⟨_, h⟩
  · exact absurd hb hoff
  · exact h

/-! ## What LOSS leaves -/

/-- On an unlocked Context that meets I-a, LOSS writes what is there already (R160). -/
theorem loss_of_unlocked {p : Config.Params} {c : Context} (h : c.Inv p) (hl : c.lock = false) : c.loss = c := by
  obtain ⟨hb, hw, hr⟩ := h.unlocked_is_empty hl
  exact context_ext_reads c.loss c hl.symm hb.symm rfl hw.symm fun i hi => (bufRead_loss c i).trans (hr i hi).symm

/-! ## WORD_STEP from each count of words -/

/-- The buffer as a list once a word has been appended (R182). -/
theorem append_toList (c : Context) (w : Word) : (c.append w).buf.toList = c.buf.toList.set c.wcount.toNat w :=
  bufWrite_toList c c.wcount.toNat w

/-- Completion as R185 to R187 have it, on the count and the header word 2 before the append. -/
theorem messageComplete_append_iff {c : Context} (w : Word) (h : c.wcount.toNat < 33) :
    (c.append w).messageComplete = true ↔ completesMessage c w := by
  have hword : (c.append w).bufRead 1 = headerWord2After c w := by
    rw [bufRead_append c w 1 h, headerWord2After]
    simp only [eq_comm]
  rw [messageComplete_iff, append_wcount_toNat c w h, hword, completesMessage]
  omega

/-- A completed message goes to DECODE, whose length checks hold (R186, R212). -/
theorem dispatchRecord_append (p : Config.Params) {c : Context} {w : Word} (h : c.wcount.toNat < 33)
    (hm : (c.append w).messageComplete = true) :
    dispatchRecord p (c.append w).buf.toList (c.append w).wcount.toNat =
      decodeMessage p (c.buf.toList.set c.wcount.toNat w) (c.wcount.toNat + 1) := by
  obtain ⟨h2, hlen⟩ := (messageComplete_iff _).mp hm
  have hcount := append_wcount_toNat c w h
  rw [← decodeMessage_of_length p _ _ h2 (by omega) (by rw [wordAt_toList]; exact hlen), hcount, append_toList]

theorem wcount_lt_of_empty {c : Context} (h0 : c.wcount = 0) : c.wcount.toNat < 33 := by rw [h0]; decide

/-- One word is no message (R185): two headers are due. -/
theorem messageComplete_append_first {c : Context} (w : Word) (h0 : c.wcount = 0) :
    (c.append w).messageComplete = false := by
  rw [← Bool.not_eq_true, messageComplete_append_iff w (wcount_lt_of_empty h0), completesMessage, h0]
  exact fun ⟨h1, _⟩ => absurd h1 (by decide)

theorem append_first {c : Context} (w : Word) (h0 : c.wcount = 0) :
    c.append w = { c with buf := c.buf.setIfInBounds 0 w, wcount := 1 } := by
  rw [Context.append, Context.bufWrite, h0]
  rfl

theorem wordStep_noPreamble {p : Config.Params} {w : Word} {c : Context} (h0 : c.wcount = 0)
    (hp : preambleOk p w = false) : wordStep p w c = (c.loss, .resyncing .preamble, .syncLost) := by
  rcases wordStep_cases p w c with ⟨_, _, h⟩ | ⟨h33, _⟩ | ⟨hpre, _⟩ | ⟨hpre, _⟩
  · exact h
  · exact absurd (wcount_lt_of_empty h0) (Nat.not_lt.mpr h33)
  all_goals exact absurd (hp.symm.trans (hpre h0)) (by decide)

theorem wordStep_full {p : Config.Params} {w : Word} {c : Context} (h33 : 33 ≤ c.wcount.toNat) :
    wordStep p w c = (c.loss, .error .frameLength, .syncLost) := by
  rcases wordStep_cases p w c with ⟨h0, _⟩ | ⟨_, h⟩ | ⟨_, hlt, _⟩ | ⟨_, hlt, _⟩
  · exact absurd (wcount_lt_of_empty h0) (Nat.not_lt.mpr h33)
  · exact h
  all_goals omega

/-- A word that is admitted is stored: it completes the message, or is one more word of it (R158, R180). -/
theorem wordStep_stored {p : Config.Params} {w : Word} {c : Context} (hp : c.wcount = 0 → preambleOk p w = true)
    (hlt : c.wcount.toNat < 33) :
    (completesMessage c w ∧ wordStep p w c =
      (c.asmDiscard, decodeMessage p (c.buf.toList.set c.wcount.toNat w) (c.wcount.toNat + 1), .word)) ∨
    (¬ completesMessage c w ∧ wordStep p w c = (c.append w, .incomplete, .word)) := by
  rcases wordStep_cases p w c with ⟨h0, hno, _⟩ | ⟨h33, _⟩ | ⟨_, _, hm, h⟩ | ⟨_, _, hm, h⟩
  · exact absurd (hno.symm.trans (hp h0)) (by decide)
  · omega
  · rw [dispatchRecord_append p hlt hm] at h
    exact .inl ⟨(messageComplete_append_iff w hlt).mp hm, h⟩
  · exact .inr ⟨fun hc => Bool.false_ne_true (hm.symm.trans ((messageComplete_append_iff w hlt).mpr hc)), h⟩

/-- A first word with the preamble is stored as header word 1 (R158, R182). -/
theorem wordStep_first {p : Config.Params} {w : Word} {c : Context} (h0 : c.wcount = 0) (hp : preambleOk p w = true) :
    wordStep p w c = ({ c with buf := c.buf.setIfInBounds 0 w, wcount := 1 }, .incomplete, .word) := by
  rcases wordStep_cases p w c with ⟨_, hno, _⟩ | ⟨h33, _⟩ | ⟨_, _, hm, _⟩ | ⟨_, _, _, h⟩
  · exact absurd (hno.symm.trans hp) (by decide)
  · exact absurd (wcount_lt_of_empty h0) (Nat.not_lt.mpr h33)
  · exact absurd ((messageComplete_append_first w h0).symm.trans hm) (by decide)
  · rw [h, append_first w h0]

/-- The one word that WORD_STEP stores in an empty buffer is what a command that acquires lock answers with (R153, R162). -/
theorem replyStep_first {s : State} {w : Word} {c : Context} (hl : s.ctx.lock = false) (h0 : c.wcount = 0)
    (hp : preambleOk s.cfg w = true) : s.replyStep w (wordStep s.cfg w c) =
      s.reply { c with buf := c.buf.setIfInBounds 0 w, wcount := 1 } .incomplete .lockAcquired (some w) := by
  rw [wordStep_first h0 hp, State.replyStep, hl]
  rfl

/-- WORD_STEP leaves a BITOFF of 0: where it writes it, it writes 0 (R158). -/
theorem wordStep_bitoff {p : Config.Params} {w : Word} {c : Context} (hb : c.bitoff = 0) :
    (wordStep p w c).1.bitoff = 0 := by
  rcases wordStep_cases p w c with ⟨_, _, h⟩ | ⟨_, h⟩ | ⟨_, _, _, h⟩ | ⟨_, _, _, h⟩ <;> rw [h]
  · rfl
  · rfl
  · exact hb
  · exact hb

/-! ## Sync events and results (R159) -/

/-- The pairs of sync event and result that a command can report. -/
inductive EventFits : SyncEvent → Result → Prop
  | noneIncomplete : EventFits .none .incomplete
  | noneRefused (c : Cause) : EventFits .none (.refused c)
  | lockAcquired : EventFits .lockAcquired .incomplete
  | wordIncomplete : EventFits .word .incomplete
  | wordUnknownType : EventFits .word (.error .unknownType)
  | wordComplete (r : Record) : EventFits .word (.complete r)
  | syncLostResyncing (c : Cause) : EventFits .syncLost (.resyncing c)
  | syncLostFrameLength : EventFits .syncLost (.error .frameLength)

section EventFits
variable {e : SyncEvent} {r : Result}

theorem EventFits.syncLost_iff (h : EventFits e r) :
    e = .syncLost ↔ (∃ c, r = .resyncing c) ∨ r = .error .frameLength := by
  cases h <;> simp

theorem EventFits.of_none (h : EventFits e r) (he : e = .none) : r = .incomplete ∨ ∃ c, r = .refused c := by
  cases h with
  | noneIncomplete => exact .inl rfl
  | noneRefused c => exact .inr ⟨c, rfl⟩
  | _ => cases he

theorem EventFits.of_lockAcquired (h : EventFits e r) (he : e = .lockAcquired) : r = .incomplete := by
  cases h with
  | lockAcquired => rfl
  | _ => cases he

end EventFits

/-- WORD_STEP never returns FRAME_LENGTH with WORD: the dispatch has no such error (R230). -/
theorem eventFits_wordStep (p : Config.Params) (w : Word) (c : Context) :
    EventFits (wordStep p w c).2.2 (wordStep p w c).2.1 := by
  rcases wordStep_cases p w c with ⟨_, _, h⟩ | ⟨_, h⟩ | ⟨_, _, _, h⟩ | ⟨_, _, _, h⟩ <;> rw [h]
  · exact .syncLostResyncing .preamble
  · exact .syncLostFrameLength
  · rcases dispatchRecord_cases p (c.append w).buf.toList (c.append w).wcount.toNat with hd | ⟨r, hd⟩ <;> rw [hd]
    · exact .wordUnknownType
    · exact .wordComplete r
  · exact .wordIncomplete

/-- Where lock is acquired the assembler was empty, so the word stored completes nothing (R150, R162). -/
theorem eventFits_fromLock {p : Config.Params} {w : Word} {c : Context} {wasLocked : Bool}
    (h : wasLocked = false → c.wcount = 0) :
    EventFits ((wordStep p w c).2.2.fromLock wasLocked) (wordStep p w c).2.1 := by
  cases wasLocked with
  | true => rw [fromLock_true]; exact eventFits_wordStep p w c
  | false =>
    cases hp : preambleOk p w with
    | true => rw [wordStep_first (h rfl) hp]; exact .lockAcquired
    | false => rw [wordStep_noPreamble (h rfl) hp]; exact .syncLostResyncing .preamble

/-- Every command shows a sync event and a result that go together. -/
theorem exec_eventFits {i : Instr} {s t : State} (hi : isCommand i = true) (hinv : s.ctx.Inv s.cfg)
    (hx : exec i s = .next t) : ∃ o, t.out = some o ∧ EventFits o.event o.result := by
  have hempty : s.ctx.lock = false → s.ctx.wcount = 0 := fun hl => (hinv.unlocked_is_empty hl).2.1
  cases i with
  | feedBit b =>
    rcases execFeedBit_cases b s with ⟨_, _, h⟩ | ⟨_, _, h⟩ | ⟨_, _, h⟩ | ⟨_, _, _, h⟩ | ⟨_, _, _, h⟩ <;>
      cases h.symm.trans hx
    · exact ⟨_, rfl, eventFits_fromLock hempty⟩
    · exact ⟨_, rfl, .noneIncomplete⟩
    · exact ⟨_, rfl, .noneIncomplete⟩
    · exact ⟨_, rfl, .syncLostResyncing .parity⟩
    · exact ⟨_, rfl, eventFits_fromLock hempty⟩
  | feedWord w =>
    rcases execFeedWord_cases w s with ⟨_, h⟩ | ⟨_, h⟩ <;> cases h.symm.trans hx
    · exact ⟨_, rfl, .noneRefused .notOnBoundary⟩
    · exact ⟨_, rfl, eventFits_fromLock hempty⟩
  | desync => cases hx; exact ⟨_, rfl, .syncLostResyncing .external⟩
  | reservedCmd => cases hx; exact ⟨_, rfl, .noneRefused .badCommand⟩
  | _ => cases hi

/-! ## The statements -/

/-- Settles O7: an unlocked FEED_BIT that is not at a lock point leaves LOCK at 0. -/
theorem feedBitLocksOnlyAtLockPoint : Obligations.FeedBitLocksOnlyAtLockPoint := by
  intro b s t hl hx ht
  have hacc : t.ctx.acc = (s.ctx.shiftIn b).acc := execFeedBit_acc hx
  rw [hacc]
  rcases execFeedBit_unlocked (b := b) hl with ⟨hp, _⟩ | ⟨_, h⟩
  · exact (lockPoint_iff _ _).mp hp
  · cases h.symm.trans hx
    exact absurd (hl.symm.trans ht) (by decide)

/-- Settles O8: the corrupted candidate fails the parity test, by the linearity of the check. -/
theorem singleBitErrorLosesLock : Obligations.SingleBitErrorLosesLock := by
  intro b s i hl hb hi hvalid
  exact execFeedBit_badParity hl hb (parityOk_eq_false_of_xor_bit (by omega) hvalid)

/-- Settles O11: by I-a the Context is empty and on a boundary, so WORD_STEP stores header word 1, or executes LOSS in vain. -/
theorem feedWordWhileUnlockedEntersLockOnPreamble : Obligations.FeedWordWhileUnlockedEntersLockOnPreamble := by
  intro w s hinv hl
  obtain ⟨hb, hw, _⟩ := hinv.unlocked_is_empty hl
  refine ⟨fun hp => (execFeedWord_onBoundary w hb).trans (congrArg _ ?_),
    fun hp => (execFeedWord_onBoundary w hb).trans (congrArg _ ?_)⟩
  · rw [replyStep_first (c := { s.ctx with lock := true }) hl hw hp, hb]
  · have hloss : ({ s.ctx with lock := true } : Context).loss = s.ctx := loss_of_unlocked hinv hl
    rw [wordStep_noPreamble (c := { s.ctx with lock := true }) hw hp, hloss]
    rfl

/-- Settles O12. -/
theorem desyncExecutesLoss : Obligations.DesyncExecutesLoss := by
  refine ⟨fun din => decodeCommand_commandWord 2 din, fun s => ⟨rfl, fun hinv hl => ?_⟩⟩
  change Host.Outcome.next (s.reply s.ctx.loss (.resyncing .external) .syncLost none) = _
  rw [loss_of_unlocked hinv hl]

/-- Settles O16. -/
theorem lossLeavesResetExceptAcc : Obligations.LossLeavesResetExceptAcc := by
  refine fun s => ⟨rfl, fun hinv hl => ?_⟩
  change Host.Outcome.next (s.quiet s.ctx.loss) = _
  rw [loss_of_unlocked hinv hl]

/-- Settles O19, from what WORD_STEP does at each count of words. -/
theorem wordStepCases : Obligations.WordStepCases := by
  intro w s
  have delivered {x : Context × Result × SyncEvent} (h : wordStep s.cfg w s.ctx = x) :
      exec (.wordStep w) s = .next (s.deliver x.1 (.stepped x.2.1 x.2.2)) := by rw [← h]; rfl
  refine ⟨fun h0 hp => ?_, fun h33 => ?_, fun hp hlt hc => ?_, fun hp hlt hc => ?_⟩
  · exact delivered (wordStep_noPreamble h0 hp)
  · exact delivered (wordStep_full h33)
  · rcases wordStep_stored hp hlt with ⟨_, h⟩ | ⟨hno, _⟩
    · exact delivered h
    · exact absurd hc hno
  · rcases wordStep_stored hp hlt with ⟨hyes, _⟩ | ⟨_, h⟩
    · exact absurd hyes hc
    · exact ⟨_, delivered h, rfl, rfl, rfl, append_wcount_toNat s.ctx w hlt, fun i _ => bufRead_append s.ctx w i hlt⟩

/-- Settles O53: read off the table of pairs. -/
theorem eventsAndResultsAgree : Obligations.EventsAndResultsAgree := by
  intro i s t o hi hinv hx ho
  obtain ⟨o', ho', hfits⟩ := exec_eventFits hi hinv hx
  cases ho.symm.trans ho'
  exact ⟨hfits.syncLost_iff, hfits.of_none, hfits.of_lockAcquired⟩

/-- Settles O2. -/
theorem feedBitWithoutLockPointOnlyShifts : Obligations.FeedBitWithoutLockPointOnlyShifts := by
  intro b s hl hno
  rcases execFeedBit_unlocked (b := b) hl with ⟨hp, _⟩ | ⟨_, h⟩
  · exact absurd ((lockPoint_iff _ _).mp hp) hno
  · exact h

/-- Settles O3: WORD_STEP runs on an empty buffer. -/
theorem feedBitAcquiresLock : Obligations.FeedBitAcquiresLock := by
  intro b s hl hw hpre hpar
  have hpoint := (lockPoint_iff _ _).mpr ⟨hpre, hpar⟩
  exact (execFeedBit_lockPoint hl hpoint).trans
    (congrArg _ (replyStep_first (c := { s.ctx.shiftIn b with lock := true, bitoff := 0 }) hl hw hpre))

/-- Settles O4. -/
theorem feedBitHandsItsWordToWordStep : Obligations.FeedBitHandsItsWordToWordStep := by
  refine fun b s => ⟨fun hl hpre hpar => execFeedBit_lockPoint hl ((lockPoint_iff _ _).mpr ⟨hpre, hpar⟩),
    fun hl hb hpar => ?_⟩
  rcases execFeedBit_last (b := b) hl hb with ⟨hbad, _⟩ | ⟨_, h⟩
  · exact absurd (hpar.symm.trans hbad) (by decide)
  · exact h

/-- Settles O5: the increment of five bits is the sum modulo 32. -/
theorem feedBitInsideWordOnlyCounts : Obligations.FeedBitInsideWordOnlyCounts := by
  intro b s hl hb
  have hne : s.ctx.bitoff ≠ 29 := fun h => hb (congrArg BitVec.toNat h)
  have hsum : s.ctx.bitoff + 1 = BitVec.ofNat 5 ((s.ctx.bitoff.toNat + 1) % 32) := by bv_omega
  rw [← hsum]
  exact execFeedBit_inside hl hne

/-- Settles O6: what LOSS leaves is the Context of reset with ACC as it was. -/
theorem feedBitParityFailureLosesLock : Obligations.FeedBitParityFailureLosesLock :=
  fun _ _ => execFeedBit_badParity

/-- Settles O9. -/
theorem feedWordOffBoundaryIsRefused : Obligations.FeedWordOffBoundaryIsRefused := by
  intro w s hb
  rcases execFeedWord_cases w s with ⟨_, h⟩ | ⟨h0, _⟩
  · exact h
  · exact absurd h0 hb

/-- Settles O10: WORD_STEP writes neither ACC nor a BITOFF other than 0. -/
theorem feedWordOnBoundaryRunsWordStep : Obligations.FeedWordOnBoundaryRunsWordStep := by
  refine fun w s hb => ⟨execFeedWord_onBoundary w hb, fun t hx => ?_⟩
  cases (execFeedWord_onBoundary w hb).symm.trans hx
  exact ⟨wordStep_acc _ _ _, wordStep_bitoff hb⟩

end Sys2Proof.Machine
end

section
/-! Proofs of the statements about the message assembler (`42_message_assembler.md`): what ACCEPT_WORD does at each count of
words (R180), the step that ends a message (R186, R189 to R191), and a whole message fed word by word (R186). -/

namespace Sys2Proof.Machine

/-! ## ACCEPT_WORD -/

theorem acceptWord_full {p : Config.Params} {w : Word} {c : Context} (h33 : 33 ≤ c.wcount.toNat) :
    acceptWord p w c = (c.asmDiscard, .error .frameLength) := by
  rcases acceptWord_cases p w c with ⟨_, h⟩ | ⟨hlt, _⟩ | ⟨hlt, _⟩
  · exact h
  all_goals omega

/-- Below the capacity the word is stored: it completes the message, or is one more word of it (R182, R186, R188). -/
theorem acceptWord_stored {p : Config.Params} {w : Word} {c : Context} (hlt : c.wcount.toNat < 33) :
    (completesMessage c w ∧ acceptWord p w c =
      (c.asmDiscard, decodeMessage p (c.buf.toList.set c.wcount.toNat w) (c.wcount.toNat + 1))) ∨
    (¬ completesMessage c w ∧ acceptWord p w c = (c.append w, .incomplete)) := by
  rcases acceptWord_cases p w c with ⟨h33, _⟩ | ⟨_, hm, h⟩ | ⟨_, hm, h⟩
  · omega
  · rw [dispatchRecord_append p hlt hm] at h
    exact .inl ⟨(messageComplete_append_iff w hlt).mp hm, h⟩
  · exact .inr ⟨fun hc => Bool.false_ne_true (hm.symm.trans ((messageComplete_append_iff w hlt).mpr hc)), h⟩

/-! ## The result of a completed message -/

/-- The results that end a message: DECODE's (R186), and the capacity guard's error (R181). -/
def Result.endsMessage : Result → Bool
  | .complete _ | .error _ => true
  | .incomplete | .resyncing _ | .refused _ => false

/-- Header word 2 as it is read after the append. -/
theorem bufRead_one_append_eq {c : Context} (w : Word) (hlt : c.wcount.toNat < 33) :
    (c.append w).bufRead 1 = headerWord2After c w := by
  rw [bufRead_append c w 1 hlt, headerWord2After]
  simp only [eq_comm]

section Completed
variable {p : Config.Params} {c : Context} {w : Word}

/-- The length checks of R212 hold for a message that the assembler completes. -/
theorem decodeMessage_completed (hlt : c.wcount.toNat < 33) (hc : completesMessage c w) :
    decodeMessage p (c.buf.toList.set c.wcount.toNat w) (c.wcount.toNat + 1) =
      dispatchRecord p (c.append w).buf.toList (c.append w).wcount.toNat :=
  (dispatchRecord_append p hlt ((messageComplete_append_iff w hlt).mpr hc)).symm

/-- A completed message is no FRAME_LENGTH error (R230). -/
theorem decodeMessage_completed_ne_frameLength (hlt : c.wcount.toNat < 33) (hc : completesMessage c w) :
    decodeMessage p (c.buf.toList.set c.wcount.toNat w) (c.wcount.toNat + 1) ≠ .error .frameLength := by
  rw [decodeMessage_completed hlt hc]
  rcases dispatchRecord_cases p (c.append w).buf.toList (c.append w).wcount.toNat with h | ⟨r, h⟩ <;>
    rw [h] <;> exact fun h => nomatch h

/-- The record of a completed message carries the frame length that completed it (R213). -/
theorem frmlen_of_decodeMessage_completed {r : Record} (hlt : c.wcount.toNat < 33) (hc : completesMessage c w)
    (h : decodeMessage p (c.buf.toList.set c.wcount.toNat w) (c.wcount.toNat + 1) = .complete r) :
    (recordHeader r).frmlen = frmlenOf (headerWord2After c w) := by
  rw [decodeMessage_completed hlt hc] at h
  rw [dispatchRecord_frmlen p _ _ r h, wordAt_toList, bufRead_one_append_eq w hlt]

/-- Below the capacity WORD_STEP ends a message in one way only: with the word that completes it (R158, R186). -/
theorem wordStep_of_endsMessage (hlt : c.wcount.toNat < 33) (hr : (wordStep p w c).2.1.endsMessage = true) :
    completesMessage c w ∧ wordStep p w c =
      (c.asmDiscard, decodeMessage p (c.buf.toList.set c.wcount.toNat w) (c.wcount.toNat + 1), .word) := by
  rcases wordStep_cases p w c with ⟨_, _, h⟩ | ⟨h33, _⟩ | ⟨_, _, hm, h⟩ | ⟨_, _, _, h⟩
  · rw [h] at hr; cases hr
  · omega
  · rw [dispatchRecord_append p hlt hm] at h
    exact ⟨(messageComplete_append_iff w hlt).mp hm, h⟩
  · rw [h] at hr; cases hr

end Completed

/-! ## The step that ends a message -/

/-- The Context on which a command runs WORD_STEP: locked, at a word boundary, the assembler as it was (R150, R162). -/
def Context.atBoundary (c : Context) (a : Candidate) : Context := { c with lock := true, bitoff := 0, acc := a }

/-- A command answers on its own, and then ends no message, or with WORD_STEP's answer at a word boundary. -/
theorem exec_direct_or_wordStep {i : Instr} {s t : State} (hi : isCommand i = true) (hx : exec i s = .next t) :
    (∃ c r e, t = s.reply c r e none ∧ r.endsMessage = false) ∨
    ∃ w a, t = s.replyStep w (wordStep s.cfg w (s.ctx.atBoundary a)) := by
  cases i with
  | feedBit b =>
    rcases execFeedBit_cases b s with ⟨_, _, h⟩ | ⟨_, _, h⟩ | ⟨_, _, h⟩ | ⟨_, _, _, h⟩ | ⟨hl, _, _, h⟩ <;>
      cases h.symm.trans hx
    · exact .inr ⟨_, (s.ctx.shiftIn b).acc, rfl⟩
    · exact .inl ⟨_, _, _, rfl, rfl⟩
    · exact .inl ⟨_, _, _, rfl, rfl⟩
    · exact .inl ⟨_, _, _, rfl, rfl⟩
    · have hctx : { s.ctx.shiftIn b with bitoff := 0 } = s.ctx.atBoundary (s.ctx.shiftIn b).acc := by
        rw [Context.atBoundary, ← hl]; rfl
      exact .inr ⟨_, _, by rw [hctx]⟩
  | feedWord w =>
    rcases execFeedWord_cases w s with ⟨_, h⟩ | ⟨hb, h⟩ <;> cases h.symm.trans hx
    · exact .inl ⟨_, _, _, rfl, rfl⟩
    · have hctx : { s.ctx with lock := true } = s.ctx.atBoundary s.ctx.acc := by rw [Context.atBoundary, ← hb]
      exact .inr ⟨w, _, by rw [hctx]⟩
  | desync | reservedCmd => cases hx; exact .inl ⟨_, _, _, rfl, rfl⟩
  | _ => cases hi

/-- From the Context `c` the word `w` completed a message: the Context is now `d`, the outputs are `o`. -/
structure MessageEnd (p : Config.Params) (c d : Context) (o : Outputs) (w : Word) : Prop where
  completes : completesMessage c w
  word_shown : o.wordO = some w
  event_word : o.event = .word
  result_eq : o.result = decodeMessage p (c.buf.toList.set c.wcount.toNat w) (c.wcount.toNat + 1)
  ctx_eq : ∃ a, d = (c.atBoundary a).asmDiscard

/-- A Context that holds a word is locked (I-a). -/
theorem Context.Inv.locked_of_word {p : Config.Params} {c : Context} (h : c.Inv p) (h1 : 1 ≤ c.wcount.toNat) :
    c.lock = true := by
  by_contra hl
  obtain ⟨_, h0, _⟩ := h.unlocked_is_empty (Bool.eq_false_of_not_eq_true hl)
  rw [h0] at h1
  exact absurd h1 (by decide)

/-- Under the invariants a step ends a message only with the word that completes it (R186, R191). -/
theorem messageEnd_of_step {s t : State} {o : Outputs} (hs : s.Inv) (hstep : step s = .next t) (ho : t.out = some o)
    (hr : o.result.endsMessage = true) : ∃ w, MessageEnd s.cfg s.ctx t.ctx o w := by
  rcases step_cases s hs.bench_empty with he | ⟨i, rfl | hi, he⟩ <;> rw [he] at hstep
  · cases hstep; cases ho
  · cases hstep; cases ho
  · rcases exec_direct_or_wordStep hi hstep with ⟨c, r, e, rfl, hno⟩ | ⟨w, a, rfl⟩ <;> cases ho
    · exact absurd (hno.symm.trans hr) (by decide)
    · have hlt : (s.ctx.atBoundary a).wcount.toNat < 33 := Nat.lt_succ_of_le hs.ctx_inv.wcount_range
      obtain ⟨hc, hx⟩ := wordStep_of_endsMessage (p := s.cfg) (w := w) hlt hr
      have hl : s.ctx.lock = true := hs.ctx_inv.locked_of_word hc.1
      refine ⟨w, hc, ?_, ?_, congrArg (fun x => x.2.1) hx, a, congrArg Prod.fst hx⟩
      · simp only [hx, hl, fromLock_true]; rfl
      · simp only [hx, hl, fromLock_true]

/-! ## Only the words of the message count -/

theorem wordAt_take (buf : List Word) {n i : Nat} (h : i < n) : wordAt (buf.take n) i = wordAt buf i := by
  simp only [wordAt, List.getD_eq_getElem?_getD, List.getElem?_take_of_lt h]

theorem dataWithin_take (buf : List Word) (n i : Nat) : dataWithin (buf.take n) n i = dataWithin buf n i := by
  unfold dataWithin
  split
  · rw [wordAt_take buf ‹i < n›]
  · rfl

theorem slotBits_take (buf : List Word) (n k : Nat) : slotBits (buf.take n) n k = slotBits buf n k := by
  simp only [slotBits, clumpBits, dataWithin_take]

theorem slots_take (buf : List Word) (frmlen : BitVec 5) :
    slots (buf.take (Config.hdrWords + frmlen.toNat)) frmlen = slots buf frmlen := by
  simp only [slots, slotBits_take]

/-- DECODE of `n` words reads the first `n` words of what it is given (R212). -/
theorem decodeMessage_take (p : Config.Params) (buf : List Word) (n : Nat) :
    decodeMessage p (buf.take n) n = decodeMessage p buf n := by
  by_cases h : n < 2 ∨ n > 33
  · simp only [decodeMessage, if_pos h]
  · have h0 : wordAt (buf.take n) 0 = wordAt buf 0 := wordAt_take buf (by omega)
    have h1 : wordAt (buf.take n) 1 = wordAt buf 1 := wordAt_take buf (by omega)
    by_cases hn : n = 2 + (frmlenOf (wordAt buf 1)).toNat
    · have hslots : slots (buf.take n) (recHeader (wordAt buf 0) (wordAt buf 1)).frmlen =
          slots buf (recHeader (wordAt buf 0) (wordAt buf 1)).frmlen := by
        conv_lhs => rw [hn]
        exact slots_take buf _
      simp only [decodeMessage, dispatchRecord, h0, h1, hslots, List.take_take, Nat.min_self]
    · rw [decodeMessage_bad_length p _ n (by rw [h1]; omega), decodeMessage_bad_length p _ n (by omega)]

/-! ## A message fed word by word -/

theorem step_of_feedWordCycle {s : State} {w : Word} {rest : List Cycle} (hbench : s.bench = none)
    (hin : s.input = feedWordCycle w :: rest) : step s = execFeedWord w { s with input := rest } := by
  have hdec : decodeCommand (commandWord 1 w) = .feedWord w := decodeCommand_commandWord 1 w
  rw [step_of_command hbench hin rfl rfl]
  exact congrArg (fun i => exec i { s with input := rest }) hdec

/-- A Context whose entries are the words of `l` holds `l` at the head of BUF. -/
theorem take_toList_of_reads {c : Context} {l : List Word} (h33 : l.length ≤ 33)
    (h : ∀ i, i < l.length → c.bufRead i = wordAt l i) : c.buf.toList.take l.length = l := by
  refine List.ext_getElem (by simpa using h33) fun i _ hi => ?_
  have hread := h i hi
  rw [wordAt, List.getD_eq_getElem _ _ hi, Context.bufRead, dif_pos (Nat.lt_of_lt_of_le hi h33)] at hread
  rw [List.getElem_take, Vector.getElem_toList, hread]

/-- `d` is the Context `c`, with the first `k` words of `msg` in the assembler and nothing else. -/
structure HoldsWords (c : Context) (msg : List Word) (k : Nat) (d : Context) : Prop where
  lock_eq : d.lock = c.lock
  bitoff_eq : d.bitoff = c.bitoff
  acc_eq : d.acc = c.acc
  wcount_toNat : d.wcount.toNat = k
  reads : ∀ i, i < 33 → d.bufRead i = if i < k then wordAt msg i else 0

section HoldsWords
variable {p : Config.Params} {c d : Context} {msg : List Word} {k : Nat}

/-- An assembler with no word in it is empty (I-d). -/
theorem holdsWords_zero (hinv : c.Inv p) (h0 : c.wcount = 0) : HoldsWords c msg 0 c where
  lock_eq := rfl
  bitoff_eq := rfl
  acc_eq := rfl
  wcount_toNat := congrArg BitVec.toNat h0
  reads := fun i hi => hinv.empty_above i (by rw [h0]; exact Nat.zero_le i) hi

theorem HoldsWords.append (h : HoldsWords c msg k d) (hk : k < 33) :
    HoldsWords c msg (k + 1) (d.append (wordAt msg k)) := by
  have hlt : d.wcount.toNat < 33 := h.wcount_toNat.symm ▸ hk
  refine ⟨h.lock_eq, h.bitoff_eq, h.acc_eq, ?_, fun i hi => ?_⟩
  · rw [append_wcount_toNat d _ hlt, h.wcount_toNat]
  · rw [bufRead_append d _ i hlt, h.wcount_toNat, h.reads i hi]
    by_cases hik : i = k
    · rw [if_pos hik, if_pos (by omega), hik]
    · have hiff : i < k ↔ i < k + 1 := by omega
      rw [if_neg hik]
      simp only [hiff]

/-- Header word 2 is the message's second word, be it stored or the one that comes now. -/
theorem HoldsWords.headerWord2After_eq (h : HoldsWords c msg k d) (h1 : 1 ≤ k) :
    headerWord2After d (wordAt msg k) = wordAt msg 1 := by
  rw [headerWord2After, h.wcount_toNat]
  by_cases hk : k = 1
  · rw [if_pos hk, hk]
  · rw [if_neg hk, h.reads 1 (by decide), if_pos (by omega)]

/-- The message is complete with its last word and not before (R185, R186). -/
theorem HoldsWords.completes_iff (h : HoldsWords c msg k d)
    (hlen : msg.length = 2 + (frmlenOf (wordAt msg 1)).toNat) :
    completesMessage d (wordAt msg k) ↔ k + 1 = msg.length := by
  rw [completesMessage, h.wcount_toNat, hlen]
  constructor
  · rintro ⟨h1, hn⟩
    rwa [h.headerWord2After_eq h1] at hn
  · intro hn
    have h1 : 1 ≤ k := by omega
    rw [h.headerWord2After_eq h1]
    exact ⟨h1, hn⟩

/-- DECODE's operand at completion is the message (R186). -/
theorem HoldsWords.decodeMessage_last (h : HoldsWords c msg k d) (hlast : k + 1 = msg.length) (hk : k < 33) :
    decodeMessage p (d.buf.toList.set d.wcount.toNat (wordAt msg k)) (d.wcount.toNat + 1) =
      decodeMessage p msg msg.length := by
  have hfull : (d.append (wordAt msg k)).buf.toList.take msg.length = msg :=
    take_toList_of_reads (by omega) fun i hi => by
      rw [(h.append hk).reads i (by omega), if_pos (by omega)]
  rw [← append_toList, h.wcount_toNat, hlast, ← decodeMessage_take, hfull]

/-- Emptying the assembler gives back the Context from before the message. -/
theorem HoldsWords.asmDiscard_eq (h : HoldsWords c msg k d) (hinv : c.Inv p) (h0 : c.wcount = 0) : d.asmDiscard = c :=
  context_ext_reads d.asmDiscard c h.lock_eq h.bitoff_eq h.acc_eq h0.symm fun i hi =>
    (bufRead_asmDiscard d i).trans ((holdsWords_zero (msg := msg) hinv h0).reads i hi).symm

/-- WORD_STEP on the next word of a message that starts with the preamble: one more word, or DECODE's result with the last. -/
theorem HoldsWords.wordStep_eq (h : HoldsWords c msg k d) (hpre : preambleOk p (wordAt msg 0) = true)
    (hlen : msg.length = 2 + (frmlenOf (wordAt msg 1)).toNat) (hk : k < msg.length) :
    (k + 1 = msg.length ∧
      wordStep p (wordAt msg k) d = (d.asmDiscard, decodeMessage p msg msg.length, .word)) ∨
    (k + 1 ≠ msg.length ∧ wordStep p (wordAt msg k) d = (d.append (wordAt msg k), .incomplete, .word)) := by
  have hf : (frmlenOf (wordAt msg 1)).toNat < 32 := (frmlenOf (wordAt msg 1)).isLt
  have hk33 : k < 33 := by omega
  have hfirst : d.wcount = 0 → preambleOk p (wordAt msg k) = true := fun hw => by
    have hk0 : 0 = k := (congrArg BitVec.toNat hw).symm.trans h.wcount_toNat
    rw [← hk0]; exact hpre
  rcases wordStep_stored hfirst (h.wcount_toNat.symm ▸ hk33) with ⟨hc, hx⟩ | ⟨hc, hx⟩
  · have hlast := (h.completes_iff hlen).mp hc
    exact .inl ⟨hlast, by rw [hx, h.decodeMessage_last hlast hk33]⟩
  · exact .inr ⟨fun hlast => hc ((h.completes_iff hlen).mpr hlast), hx⟩

end HoldsWords

/-- `msg` is one whole message, and `s` is where its first word is due: locked, at a boundary, the assembler empty. -/
structure MessageDue (s : State) (msg : List Word) : Prop where
  ctx_inv : s.ctx.Inv s.cfg
  locked : s.ctx.lock = true
  at_boundary : s.ctx.bitoff = 0
  empty : s.ctx.wcount = 0
  preamble : preambleOk s.cfg (wordAt msg 0) = true
  length_eq : msg.length = 2 + (frmlenOf (wordAt msg 1)).toNat

/-- `u` is `s`, before the message `msg` and then `rest`, once the first `k` words of `msg` have been fed. -/
structure InsideMessage (s : State) (msg : List Word) (rest : List Cycle) (k : Nat) (u : State) : Prop where
  bench_empty : u.bench = none
  cfg_eq : u.cfg = s.cfg
  input_eq : u.input = (msg.drop k).map feedWordCycle ++ rest
  holds : HoldsWords s.ctx msg k u.ctx

section Message
variable {s u : State} {msg : List Word} {rest : List Cycle} {k : Nat}

theorem MessageDue.insideMessage (hm : MessageDue s msg) (hbench : s.bench = none)
    (hin : s.input = msg.map feedWordCycle ++ rest) : InsideMessage s msg rest 0 s :=
  ⟨hbench, rfl, hin, holdsWords_zero hm.ctx_inv hm.empty⟩

/-- One step hands the next word to WORD_STEP (R162). -/
theorem InsideMessage.step_eq (h : InsideMessage s msg rest k u) (hm : MessageDue s msg) (hk : k < msg.length) :
    step u = .next (State.replyStep { u with input := (msg.drop (k + 1)).map feedWordCycle ++ rest } (wordAt msg k)
      (wordStep s.cfg (wordAt msg k) u.ctx)) := by
  have hin : u.input = feedWordCycle (wordAt msg k) :: ((msg.drop (k + 1)).map feedWordCycle ++ rest) := by
    rw [h.input_eq, List.drop_eq_getElem_cons hk, wordAt, List.getD_eq_getElem _ _ hk]
    rfl
  have hlocked : { u.ctx with lock := true } = u.ctx := by rw [← hm.locked, ← h.holds.lock_eq]
  have hword : wordStep u.cfg (wordAt msg k) { u.ctx with lock := true } = wordStep s.cfg (wordAt msg k) u.ctx := by
    rw [hlocked, h.cfg_eq]
  rw [step_of_feedWordCycle h.bench_empty hin, ← hword]
  exact execFeedWord_onBoundary _ (h.holds.bitoff_eq.trans hm.at_boundary)

/-- A word that is not the message's last is stored and answers INCOMPLETE (R188). -/
theorem InsideMessage.step_next (h : InsideMessage s msg rest k u) (hm : MessageDue s msg)
    (hk : k + 1 < msg.length) :
    ∃ t o, step u = .next t ∧ InsideMessage s msg rest (k + 1) t ∧ t.out = some o ∧ o.result = .incomplete := by
  have hk33 : k < 33 := by have := hm.length_eq; omega
  rcases h.holds.wordStep_eq hm.preamble hm.length_eq (by omega) with ⟨hlast, _⟩ | ⟨_, hx⟩
  · omega
  · have hstep := h.step_eq hm (by omega)
    rw [hx] at hstep
    exact ⟨_, _, hstep, ⟨h.bench_empty, h.cfg_eq, rfl, h.holds.append hk33⟩, rfl, rfl⟩

/-- The last word answers DECODE's result and gives back the Context from before the message (R186, R189). -/
theorem InsideMessage.step_last (h : InsideMessage s msg rest k u) (hm : MessageDue s msg)
    (hlast : k + 1 = msg.length) :
    ∃ t o, step u = .next t ∧ t.input = rest ∧ t.ctx = s.ctx ∧ t.out = some o ∧
      o.result = decodeMessage s.cfg msg msg.length := by
  rcases h.holds.wordStep_eq hm.preamble hm.length_eq (by omega) with ⟨_, hx⟩ | ⟨hne, _⟩
  · have hstep := h.step_eq hm (by omega)
    rw [hx, hlast, List.drop_length] at hstep
    exact ⟨_, _, hstep, rfl, h.holds.asmDiscard_eq hm.ctx_inv hm.empty, rfl, rfl⟩
  · exact absurd hlast hne

/-- The words of a message before its last, one after another. -/
theorem runSteps_insideMessage (h : InsideMessage s msg rest 0 s) (hm : MessageDue s msg) (k : Nat)
    (hk : k < msg.length) :
    ∃ u, runSteps k s = .next u ∧ InsideMessage s msg rest k u ∧
      (0 < k → ∃ o, u.out = some o ∧ o.result = .incomplete) := by
  induction k with
  | zero => exact ⟨s, rfl, h, fun h0 => absurd h0 (Nat.lt_irrefl 0)⟩
  | succ k ih =>
    obtain ⟨u, hrun, hu, _⟩ := ih (by omega)
    obtain ⟨t, o, hstep, ht, hout⟩ := hu.step_next hm hk
    exact ⟨t, (runSteps_succ_of_next hrun).trans hstep, ht, fun _ => ⟨o, hout⟩⟩

end Message

/-! ## The statements -/

/-- Settles O60: the words before the last are stored, and with the last the message is decoded and the assembler emptied. -/
theorem wholeMessageCompletesOnce : Obligations.WholeMessageCompletesOnce := by
  intro s w0 w1 ws rest hs hl hb h0 hpre hws hin
  have hlen : (w0 :: w1 :: ws).length = 2 + ws.length := by simp only [List.length_cons]; omega
  have hm : MessageDue s (w0 :: w1 :: ws) := ⟨hs.ctx_inv, hl, hb, h0, hpre, hlen.trans (congrArg (2 + ·) hws)⟩
  have hrun := runSteps_insideMessage (hm.insideMessage hs.bench_empty hin) hm
  refine ⟨fun k hk hlt => ?_, ?_⟩
  · obtain ⟨u, hu, _, hout⟩ := hrun k (by omega)
    obtain ⟨o, ho⟩ := hout hk
    exact ⟨u, o, hu, ho⟩
  · obtain ⟨u, hu, hinside, _⟩ := hrun (1 + ws.length) (by omega)
    have hsteps : 2 + ws.length = 1 + ws.length + 1 := by omega
    rw [hsteps, runSteps_succ_of_next hu, ← hsteps, ← hlen]
    exact hinside.step_last hm (by omega)

/-- Settles O57: the range of I-c, and an error that ends a message is DECODE's of a completed one. -/
theorem capacityGuardNeverFires : Obligations.CapacityGuardNeverFires := by
  intro s t o hs hstep ho
  have hlt : s.ctx.wcount.toNat < 33 := Nat.lt_succ_of_le hs.ctx_inv.wcount_range
  refine ⟨hlt, fun herr => ?_⟩
  obtain ⟨w, hend⟩ := messageEnd_of_step hs hstep ho (by rw [herr]; rfl)
  exact decodeMessage_completed_ne_frameLength hlt hend.completes (hend.result_eq.symm.trans herr)

/-- Settles O58, from the one way in which a step ends a message. -/
theorem completionNeedsEveryWordAndKeepsLock : Obligations.CompletionNeedsEveryWordAndKeepsLock := by
  intro s t o hs hstep ho hr
  have hlt : s.ctx.wcount.toNat < 33 := Nat.lt_succ_of_le hs.ctx_inv.wcount_range
  have hends : o.result.endsMessage = true := by
    rcases hr with ⟨r, hr⟩ | hr <;> rw [hr] <;> rfl
  obtain ⟨w, hend⟩ := messageEnd_of_step hs hstep ho hends
  obtain ⟨h1, hcount⟩ := hend.completes
  obtain ⟨a, hctx⟩ := hend.ctx_eq
  rw [hctx]
  exact ⟨⟨w, hend.word_shown, h1, hcount,
      fun r hrec => frmlen_of_decodeMessage_completed hlt hend.completes (hend.result_eq.symm.trans hrec)⟩,
    hend.event_word, rfl, rfl, rfl, fun i _ => bufRead_asmDiscard _ i⟩

/-- Settles O18, from what ACCEPT_WORD does at each count of words. -/
theorem acceptWordCases : Obligations.AcceptWordCases := by
  intro w s
  have delivered {x : Context × Result} (h : acceptWord s.cfg w s.ctx = x) :
      exec (.acceptWord w) s = .next (s.deliver x.1 (.result x.2)) := by rw [← h]; rfl
  refine ⟨fun h33 => delivered (acceptWord_full h33), fun hlt hc => ?_, fun hlt hc => ?_⟩
  · rcases acceptWord_stored hlt with ⟨_, h⟩ | ⟨hno, _⟩
    · exact delivered h
    · exact absurd hc hno
  · rcases acceptWord_stored hlt with ⟨hyes, _⟩ | ⟨_, h⟩
    · exact absurd hyes hc
    · exact ⟨_, delivered h, rfl, rfl, rfl, append_wcount_toNat s.ctx w hlt, fun i _ => bufRead_append s.ctx w i hlt⟩

/-- Settles O17: the discard is the whole meaning of the operation, and every entry then reads 0. -/
theorem asmDiscardEmptiesTheBuffer : Obligations.AsmDiscardEmptiesTheBuffer :=
  fun s => ⟨_, rfl, rfl, fun i _ => bufRead_asmDiscard s.ctx i⟩

end Sys2Proof.Machine
end

section
/-! Proofs of the statements about the payload decoder (`43_payload_decoder.md`): the outcomes of DECODE and the words it reads
(R210 to R217), which slots are present (R218, R219), the fields and the scaled values of a record (R214, R221 to R223), and the
satellites of a packed payload (R231). -/

namespace Sys2Proof.Machine

/-! ## The outcomes of DECODE (R210) -/

/-- DECODE of a message of the right length, in the order of R210. -/
theorem decodeMessage_arms (p : Config.Params) (buf : List Word) (n : Nat) :
    let h := headerOfWords (wordAt buf 0) (wordAt buf 1)
    2 ≤ n ∧ n ≤ 33 ∧ n = 2 + h.frmlen.toNat →
    decodeMessage p buf n =
      if p.legalType h.msgtype = false then .error .unknownType
      else if h.frmlen = 0 then .complete (.headerOnly h)
      else if h.msgtype = 1 ∨ h.msgtype = 9 then
        .complete (.corrections h (countPresent (slots buf h.frmlen)) (slots buf h.frmlen))
      else .complete (.raw h h.msgtype (BitVec.ofNat 6 n) (buf.take n)) := by
  rintro h ⟨h2, h33, hn⟩
  rw [decodeMessage_of_length p buf n h2 h33 hn, dispatchRecord, recHeader_eq_headerOfWords]

theorem exec_decode (buf : List Word) (n : BitVec 6) (s : State) :
    exec (.decode buf n) s = .next (s.deliver s.ctx (.result (decodeMessage s.cfg buf n.toNat))) := rfl

/-! ## Which slots are present (R219) -/

/-- The record of slot `k` ends with bit `40 (k + 1)` of the payload; the slot is present when the words hold all its bits. -/
theorem slotPresent_iff (frmlen k : Nat) : slotPresent frmlen k = true ↔ 40 * (k + 1) ≤ 24 * frmlen := by
  have hk : k = 3 * (k / 3) + k % 3 := (Nat.div_add_mod k 3).symm
  rw [slotPresent, decide_eq_true_iff, wordsNeeded]
  split_ifs <;> omega

theorem slotPresent_eq (frmlen k : Nat) : slotPresent frmlen k = decide (k < 3 * frmlen / 5) := by
  rw [Bool.eq_iff_iff, slotPresent_iff, decide_eq_true_iff]
  omega

/-- Of the numbers below `n`, `min m n` are below `m`. -/
theorem countP_range_lt (m : Nat) : ∀ n, (List.range n).countP (· < m) = min m n
  | 0 => (Nat.min_zero m).symm
  | n + 1 => by
    rw [List.range_succ, List.countP_append, countP_range_lt m n, List.countP_singleton]
    simp only [decide_eq_true_iff]
    split_ifs <;> omega

/-- The table of R219 as a formula. -/
theorem nsat_eq (buf : List Word) (frmlen : BitVec 5) :
    (countPresent (slots buf frmlen)).toNat = 3 * frmlen.toNat / 5 := by
  have hlt : frmlen.toNat < 32 := frmlen.isLt
  rw [countPresent_slots, funext (slotPresent_eq frmlen.toNat), countP_range_lt]
  omega

/-! ## The scaled values (R214, R222, R223) -/

/-- The scale bit of a record selects one of the two factors (R132). -/
theorem scales_of_scaleBit (f : SatBits) :
    prcScale (extract f 39 1) = (if f.getLsbD 39 then 320 else 20) ∧
    rrcScale (extract f 39 1) = (if f.getLsbD 39 then 32 else 2) := by
  have hbit : extract f 39 1 = BitVec.ofBool (f.getLsbD 39) := BitVec.eq_of_getLsbD_eq fun i hi => by
    obtain rfl : i = 0 := by omega
    simp [extract]
  rw [hbit]
  cases f.getLsbD 39 <;> exact ⟨rfl, rfl⟩

theorem zcountDs_toNat (b0 b1 : Word) : (recHeader b0 b1).zcountDs.toNat = 6 * (b1.toNat / 2 ^ 17) := by
  have hlt : b1.toNat < 2 ^ 30 := b1.isLt
  have hz : b1.toNat / 2 ^ 17 < 2 ^ 13 := by omega
  change (BitVec.ofNat 16 (6 * (extract b1 17 13).toNat)).toNat = _
  rw [BitVec.toNat_ofNat, extract_toNat, Nat.mod_eq_of_lt hz, Nat.mod_eq_of_lt (by omega)]

/-- A number of `n` bits times a factor of at most `2 ^ m` is a number of `n + m` bits, so nothing overflows. -/
theorem toInt_ofInt_mul {n m : Nat} (hn : 0 < n) (x : BitVec n) {k : Nat} (hk : k ≤ 2 ^ m) :
    (BitVec.ofInt (n + m) (x.toInt * k)).toInt = x.toInt * k := by
  have hlo : -2 ^ (n - 1) ≤ x.toInt := x.le_toInt
  have hhi : x.toInt < 2 ^ (n - 1) := x.toInt_lt
  have hk' : (k : Int) ≤ 2 ^ m := by exact_mod_cast hk
  have hpow : (2 : Int) ^ (n + m - 1) = 2 ^ (n - 1) * 2 ^ m := by rw [← pow_add]; congr 1; omega
  have hn1 : (1 : Int) ≤ 2 ^ (n - 1) := one_le_pow₀ (by decide)
  have hm1 : (1 : Int) ≤ 2 ^ m := one_le_pow₀ (by decide)
  refine BitVec.toInt_ofInt_eq_self (by omega) ?_ ?_ <;> rw [hpow]
  · nlinarith
  · nlinarith

/-! ## The bits of a slot, counted from the start of the payload (R89, R220) -/

/-- Bit `m` of a clump, from its most significant bit, is in data word `m / 24` of the clump. -/
theorem getMsbD_clumpBits (buf : List Word) (n c : Nat) {m : Nat} (hm : m < 120) :
    (clumpBits buf n c).getMsbD m = (dataWithin buf n (2 + (5 * c + m / 24))).getMsbD (m % 24) := by
  have hword : m / 24 < 5 := by omega
  rw [clumpBits, BitVec.getMsbD_append, BitVec.getMsbD_append, BitVec.getMsbD_append, BitVec.getMsbD_append]
  split_ifs <;> (congr 2 <;> omega)

/-- Bit `b` of the record of slot `k` is bit `40 k + b` of the payload, which is in data word `(40 k + b) / 24`. -/
theorem getMsbD_slotBits (buf : List Word) (n k : Nat) {b : Nat} (hb : b < 40) :
    (slotBits buf n k).getMsbD b =
      (dataWithin buf n (2 + (40 * k + b) / 24)).getMsbD ((40 * k + b) % 24) := by
  have hj : k % 3 < 3 := Nat.mod_lt _ (by decide)
  have hm : 120 - (80 - 40 * (k % 3) + 40 - b) = 40 * (k % 3) + b := by omega
  have hword : 5 * (k / 3) + (40 * (k % 3) + b) / 24 = (40 * k + b) / 24 := by omega
  have hbit : (40 * (k % 3) + b) % 24 = (40 * k + b) % 24 := by omega
  rw [slotBits, extract, BitVec.getMsbD_extractLsb', decide_eq_true hb, decide_eq_true (by omega), Bool.true_and,
    Bool.true_and, hm, getMsbD_clumpBits buf n _ (by omega), hword, hbit]

/-! ## Packed records (R231) -/

/-- The records one after another as one number, the first in the highest bits. -/
def satStream (recs : List SatBits) : Nat := recs.foldl (fun v r => v * 2 ^ 40 + r.toNat) 0

theorem satStream_concat (recs : List SatBits) (r : SatBits) :
    satStream (recs ++ [r]) = 2 ^ 40 * satStream recs + r.toNat := by
  rw [satStream, List.foldl_append, Nat.mul_comm (2 ^ 40)]
  rfl

/-- How many 24-bit data words hold `k` records. -/
def packedWords (k : Nat) : Nat := (40 * k + 23) / 24

/-- The words hold `k` records and no further one: `nsat` of R219. -/
theorem packedWords_nsat (k : Nat) : 3 * packedWords k / 5 = k := by unfold packedWords; omega

theorem packSats_eq (recs : List SatBits) :
    packSats recs = (List.range (packedWords recs.length)).map fun i => BitVec.ofNat 24
      ((satStream recs * 2 ^ (24 * packedWords recs.length - 40 * recs.length)) >>>
        (24 * (packedWords recs.length - 1 - i))) := rfl

@[simp] theorem packSats_length (recs : List SatBits) : (packSats recs).length = packedWords recs.length := by
  simp [packSats_eq]

/-- Bit `b` of record `k`, counted from the end of the stream. -/
theorem testBit_satStream (recs : List SatBits) {k b : Nat} (hk : k < recs.length) (hb : b < 40) :
    (satStream recs).testBit (40 * (recs.length - 1 - k) + b) = recs[k].getLsbD b := by
  induction recs using List.reverseRecOn with
  | nil => exact absurd hk (Nat.not_lt_zero k)
  | append_singleton recs r ih =>
    rw [List.length_append, List.length_singleton] at hk
    rw [satStream_concat, Nat.testBit_two_pow_mul_add _ r.isLt, List.length_append, List.length_singleton]
    by_cases hlast : k = recs.length
    · have hpos : 40 * (recs.length + 1 - 1 - k) + b = b := by omega
      rw [hpos, if_pos hb, BitVec.testBit_toNat, List.getElem_concat_length hlast]
    · have hpos : 40 * (recs.length + 1 - 1 - k) + b = 40 * (recs.length - 1 - k) + b + 40 := by omega
      have hge : ¬ 40 * (recs.length - 1 - k) + b + 40 < 40 := by omega
      rw [hpos, if_neg hge, Nat.add_sub_cancel, ih (by omega), List.getElem_append_left]

/-- Bit `40 k + b` of the packed payload is bit `b` of record `k`, both from the most significant bit. -/
theorem getMsbD_packSats (recs : List SatBits) {k b : Nat} (hk : k < recs.length) (hb : b < 40)
    (hi : (40 * k + b) / 24 < (packSats recs).length) :
    ((packSats recs)[(40 * k + b) / 24]).getMsbD ((40 * k + b) % 24) = recs[k].getMsbD b := by
  have hlen : (40 * k + b) / 24 < packedWords recs.length := packSats_length recs ▸ hi
  have hwords : packedWords recs.length = (40 * recs.length + 23) / 24 := rfl
  have hpos : 24 * (packedWords recs.length - 1 - (40 * k + b) / 24) + (24 - 1 - (40 * k + b) % 24) =
      40 * (recs.length - 1 - k) + (40 - 1 - b) + (24 * packedWords recs.length - 40 * recs.length) := by omega
  simp only [packSats_eq, List.getElem_map, List.getElem_range]
  rw [BitVec.getMsbD_eq_getLsbD, BitVec.getLsbD_ofNat, Nat.testBit_shiftRight, hpos, Nat.testBit_mul_two_pow,
    Nat.add_sub_cancel, testBit_satStream recs hk (by omega), BitVec.getMsbD_eq_getLsbD, decide_eq_true hb,
    decide_eq_true (Nat.mod_lt _ (by decide)), decide_eq_true (by omega), decide_eq_true (Nat.le_add_left _ _)]
  rfl

/-! ## The words of a message (R85 to R87) -/

section MessageWords
variable (preamble : BitVec 8) (t : BitVec 6) (staid : BitVec 10) (z : BitVec 13) (q h : BitVec 3) (payload : List Data)
  (parity : Nat → Parity)

theorem messageWords_length : (messageWords preamble t staid z q h payload parity).length = 2 + payload.length := by
  simp only [messageWords, List.length_cons, List.length_mapIdx]
  omega

theorem messageWords_header :
    let buf := messageWords preamble t staid z q h payload parity
    headerOfWords (wordAt buf 0) (wordAt buf 1) =
      { msgtype := t, staid := staid, zcount := z, zcountDs := BitVec.ofNat 16 (6 * z.toNat), seqnum := q,
        frmlen := BitVec.ofNat 5 payload.length, health := h } := by
  obtain ⟨-, ht, hstaid, -⟩ := hw1Word_fields preamble t staid (parity 0)
  obtain ⟨hz, hq, hlen, hh, -⟩ := hw2Word_fields z q (BitVec.ofNat 5 payload.length) h (parity 1)
  simp only [extract] at ht hstaid hz hq hlen hh
  simp only [messageWords, wordAt, List.getD_cons_zero, List.getD_cons_succ, headerOfWords, ht, hstaid, hz, hq, hlen, hh]

/-- DECODE's data words are the payload; the parity bits are not read. -/
theorem dataWithin_messageWords {n i : Nat} (hn : 2 + i < n) (hi : i < payload.length) :
    dataWithin (messageWords preamble t staid z q h payload parity) n (2 + i) = payload[i] := by
  rw [dataWithin_of_lt _ hn, Nat.add_comm 2 i]
  simp [messageWords, wordAt, dataOf, hi]

end MessageWords

/-! ## A message of packed satellites (R231) -/

section PackedMessage
variable (preamble : BitVec 8) (t : BitVec 6) (staid : BitVec 10) (z : BitVec 13) (q h : BitVec 3) (recs : List SatBits)
  (parity : Nat → Parity)

/-- The record of slot `k` is the `k`-th of the packed ones. -/
theorem slotBits_packSats {k : Nat} (hk : k < recs.length) :
    slotBits (messageWords preamble t staid z q h (packSats recs) parity) (2 + packedWords recs.length) k = recs[k] :=
  BitVec.eq_of_getMsbD_eq fun b hb => by
    have hi : (40 * k + b) / 24 < packedWords recs.length := by unfold packedWords; omega
    have hlen : (40 * k + b) / 24 < (packSats recs).length := (packSats_length recs).symm ▸ hi
    rw [getMsbD_slotBits _ _ _ hb, dataWithin_messageWords _ _ _ _ _ _ _ _ (by omega) hlen,
      getMsbD_packSats recs hk hb hlen]

/-- The slots are the packed records in order, and the words hold no further record. -/
theorem slots_packSats (h18 : recs.length ≤ 18) {frmlen : BitVec 5} (hfrmlen : frmlen.toNat = packedWords recs.length) :
    slots (messageWords preamble t staid z q h (packSats recs) parity) frmlen =
      recs.map (fun f => some (satellite f)) ++ List.replicate (18 - recs.length) none := by
  have hlen : (slots (messageWords preamble t staid z q h (packSats recs) parity) frmlen).length =
      (recs.map (fun f => some (satellite f)) ++ List.replicate (18 - recs.length) none).length := by
    rw [slots_length, List.length_append, List.length_map, List.length_replicate]
    omega
  refine List.ext_getElem hlen fun k hk _ => ?_
  rw [slots_length] at hk
  rw [← Option.some_inj, ← List.getElem?_eq_getElem, slots_getElem? _ _ k hk, slotPresent_eq, hfrmlen, packedWords_nsat,
    List.getElem_append]
  by_cases hlt : k < recs.length
  · simp [hlt, slotBits_packSats]
  · simp [hlt]

end PackedMessage

/-! ## The statements -/

/-- Settles O29: the header gives the number of words used, which holds the packed records and no further one. -/
theorem packedSatellitesRoundTrip : Obligations.PackedSatellitesRoundTrip := by
  intro recs t staid z q h parity s h1 h18 ht hlegal buf
  have hrange : 1 ≤ packedWords recs.length ∧ packedWords recs.length ≤ 30 := by unfold packedWords; omega
  have hheader := messageWords_header s.cfg.preamble t staid z q h (packSats recs) parity
  rw [packSats_length] at hheader
  have hfrmlen : (BitVec.ofNat 5 (packedWords recs.length)).toNat = packedWords recs.length := by
    rw [BitVec.toNat_ofNat]; omega
  have hn : (BitVec.ofNat 6 buf.length).toNat = 2 + packedWords recs.length := by
    rw [messageWords_length, packSats_length, BitVec.toNat_ofNat]; omega
  have hsome : BitVec.ofNat 5 (packedWords recs.length) ≠ 0 := fun h0 => by
    rw [h0] at hfrmlen
    change 0 = packedWords recs.length at hfrmlen
    omega
  have hnsat : countPresent (slots buf (BitVec.ofNat 5 (packedWords recs.length))) = BitVec.ofNat 5 recs.length := by
    apply BitVec.eq_of_toNat_eq
    rw [nsat_eq, hfrmlen, packedWords_nsat, BitVec.toNat_ofNat]
    omega
  have harms := decodeMessage_arms s.cfg buf (2 + packedWords recs.length)
  rw [hheader] at harms
  rw [exec_decode, hn, harms ⟨by omega, by omega, by rw [hfrmlen]⟩, if_neg (ne_false_of_eq_true hlegal), if_neg hsome,
    if_pos ht, hnsat, slots_packSats _ _ _ _ _ _ _ _ h18 hfrmlen]
  rfl

/-- Settles O20: outside the lengths of R212 the two length checks refuse; inside them each test picks its arm. -/
theorem decodeCases : Obligations.DecodeCases := by
  intro buf n s h lengthOk
  have delivered {r : Result} (hr : decodeMessage s.cfg buf n.toNat = r) :
      exec (.decode buf n) s = .next (s.deliver s.ctx (.result r)) := by rw [exec_decode, hr]
  have harms := decodeMessage_arms s.cfg buf n.toNat
  refine ⟨fun hlen => ?_, fun hlen hillegal => ?_, fun hlen hlegal h0 => ?_, fun hlen hlegal h0 hsats => ?_,
    fun hlen hlegal h0 h1 h9 => ?_⟩
  · change ¬ (2 ≤ n.toNat ∧ n.toNat ≤ 33 ∧ n.toNat = 2 + (frmlenOf (wordAt buf 1)).toNat) at hlen
    exact delivered (decodeMessage_bad_length _ _ _ (by omega))
  · exact delivered (by rw [harms hlen, if_pos hillegal])
  · exact delivered (by rw [harms hlen, if_neg (ne_false_of_eq_true hlegal), if_pos h0])
  · exact delivered (by rw [harms hlen, if_neg (ne_false_of_eq_true hlegal), if_neg h0, if_pos hsats])
  · have hraw : ¬ (h.msgtype = 1 ∨ h.msgtype = 9) := not_or.mpr ⟨h1, h9⟩
    exact delivered (by rw [harms hlen, if_neg (ne_false_of_eq_true hlegal), if_neg h0, if_neg hraw, BitVec.ofNat_toNat,
      BitVec.setWidth_eq])

/-- Settles O21: DECODE reads the first `n` words only, and these are the same in both lists. -/
theorem decodeReadsOnlyItsWords : Obligations.DecodeReadsOnlyItsWords := by
  intro p buf buf' n h
  have htake : buf.take n = buf'.take n := List.ext_getElem? fun i => by
    by_cases hi : i < n
    · rw [List.getElem?_take_of_lt hi, List.getElem?_take_of_lt hi, h i hi]
    · rw [List.getElem?_take_eq_none (by omega), List.getElem?_take_eq_none (by omega)]
  rw [← decodeMessage_take p buf, htake, decodeMessage_take]

/-- Settles O24: slot `3 c + j` is at position `j` of clump `c`; each row of the table says that the words hold its 40 bits. -/
theorem slotsPresence : Obligations.SlotsPresence := by
  intro buf frmlen s
  refine ⟨slots buf frmlen, rfl, slots_length buf frmlen, fun c j hc hj => ?_⟩
  intro r present
  have hdiv : (3 * c + j) / 3 = c := by omega
  have hmod : (3 * c + j) % 3 = j := by omega
  have htable : slotPresent frmlen.toNat (3 * c + j) = true ↔ present := by
    rw [slotPresent_iff]
    omega
  rw [slots_getElem? buf frmlen _ (by omega)]
  refine ⟨fun h => ?_, fun h => ?_⟩
  · rw [if_pos (htable.mpr h), slotBits, hdiv, hmod]
    rfl
  · rw [if_neg (mt htable.mp h)]

/-- Settles O25: slot `k` is present exactly when `k` is below three fifths of the frame length, which the table lists. -/
theorem presentSlotsArePrefix : Obligations.PresentSlotsArePrefix := by
  intro buf frmlen
  rw [nsat_eq]
  refine ⟨?_, fun k hk => ?_⟩
  · have hlt : frmlen.toNat < 32 := frmlen.isLt
    generalize frmlen.toNat = L at hlt
    revert L
    decide
  · rw [slots_getElem? buf frmlen k hk, slotPresent_eq]
    by_cases hlt : k < 3 * frmlen.toNat / 5 <;> simp [hlt]

/-- Settles O26: a 16-bit number times 320 fits in 25 signed bits, an 8-bit number times 32 in 13. -/
theorem satelliteFieldsAndScaling : Obligations.SatelliteFieldsAndScaling := by
  intro f
  obtain ⟨hprc, hrrc⟩ := scales_of_scaleBit f
  refine ⟨rfl, rfl, rfl, rfl, rfl, rfl, ?_, ?_⟩
  · change (BitVec.ofInt (16 + 9) ((f.extractLsb' 16 16).toInt * prcScale (extract f 39 1))).toInt = _
    have hfits : prcScale (extract f 39 1) ≤ 2 ^ 9 := by rw [hprc]; split_ifs <;> decide
    rw [toInt_ofInt_mul (by decide) _ hfits, hprc]
    split_ifs <;> rfl
  · change (BitVec.ofInt (8 + 5) ((f.extractLsb' 8 8).toInt * rrcScale (extract f 39 1))).toInt = _
    have hfits : rrcScale (extract f 39 1) ≤ 2 ^ 5 := by rw [hrrc]; split_ifs <;> decide
    rw [toInt_ofInt_mul (by decide) _ hfits, hrrc]
    split_ifs <;> rfl

/-- Settles O27: six times a 13-bit number is at most 49146. -/
theorem zcountIsScaledExactly : Obligations.ZcountIsScaledExactly := by
  intro b0 b1
  have hlt : b1.toNat < 2 ^ 30 := b1.isLt
  rw [zcountDs_toNat]
  exact ⟨rfl, by omega⟩

/-- Settles O49: each of the three ways to answer is a next state. -/
theorem everyInstructionCompletes : Obligations.EveryInstructionCompletes := by
  intro i s
  rcases exec_answers i s with ⟨c, r, e, w, h⟩ | ⟨c, h⟩ | ⟨c, v, h⟩
  · exact ⟨_, h⟩
  · exact ⟨_, h⟩
  · exact ⟨_, h⟩

end Sys2Proof.Machine
end

section
/-! Proof of the statement about the dumper (`44_dumper.md`): RENDER is total and pure (R260), and its text is RENDER_TEXT of the
record, which stays uninterpreted (R261). -/

namespace Sys2Proof.Machine

/-- Settles O42: the delivery is the whole meaning of the row, without a case on the record, and RENDER_TEXT is nowhere unfolded. -/
theorem renderIsTotalAndPure : Obligations.RenderIsTotalAndPure :=
  fun _ _ => rfl

end Sys2Proof.Machine
end

section
/-! Proof of the statement about the exceptions (`60_exceptions.md`): nothing that the ports present stops the block (R285). -/

namespace Sys2Proof.Machine

/-- Settles O48: an idle cycle is a next state; any other presented cycle runs an instruction, which completes (O49) and leaves
the bench as it was. -/
theorem portsNeverStopTheBlock : Obligations.PortsNeverStopTheBlock := by
  intro s hbench
  rcases step_cases s hbench with hidle | ⟨i, _, hruns⟩
  · exact ⟨_, hidle, hbench⟩
  · obtain ⟨t, hnext⟩ := everyInstructionCompletes i { s with input := s.input.tail }
    obtain ⟨_, _, hkept⟩ := exec_frame hnext
    exact ⟨t, hruns.trans hnext, hkept.trans hbench⟩

end Sys2Proof.Machine
end

section
/-! Proofs of the statements about reset (`70_reset_and_hazards.md`): RESET's meaning from every state (R310, R312) and the values
it leaves (R311). -/

namespace Sys2Proof.Machine

/-- RESET (R310): a quiet cycle that leaves the Context of R311, whatever the Context was. -/
theorem exec_reset (s : State) : exec .reset s = .next (s.quiet Context.reset) := rfl

@[simp] theorem bufRead_reset (i : Nat) : Context.reset.bufRead i = 0 := bufRead_asmDiscard Context.reset i

/-- With ACC zero as well, what LOSS leaves is the state of reset (R311). -/
theorem loss_withAccZero (c : Context) : { c.loss with acc := 0 } = Context.reset :=
  congrArg (fun d : Context => { d with acc := 0 }) (loss_eq_reset c)

/-- Settles O14: `quiet` replaces the whole Context and empties both outputs, and touches no other field. -/
theorem resetGivesEveryFieldItsValue : Obligations.ResetGivesEveryFieldItsValue :=
  exec_reset

/-- Settles O15. -/
theorem resetValues : Obligations.ResetValues :=
  ⟨rfl, rfl, rfl, rfl, fun i _ => bufRead_reset i, fun c => (loss_withAccZero c).symm, inv_reset State.reset.cfg⟩

end Sys2Proof.Machine
end
